-- ==== Sys2Proof/Word.lean ====
section
/-! DEFINITION. The byte and byte sequences of spec rules R8 and R10. -/

namespace Sys2Proof

/-- A byte: 8 bits (R8). -/
abbrev Byte := BitVec 8

/-- A finite byte sequence (R10). -/
abbrev Bytes := List Byte

end Sys2Proof
end

