-- ==== Sys2Proof/Config.lean ====
section
/-! DEFINITION. What an implementation or the environment fixes: the parameters of R7, the record a port
open hands over, and the FREE VALUES of the model, each an opaque constant without a body. -/

namespace Sys2Proof

/-- The two destinations (R6 `NDEST`, glossary). -/
inductive Dest
  | head
  | bottom
deriving DecidableEq, Repr

/-- What a successful `PortOpen` hands over and an EndpointSet keeps while it is Connected (R37, R215):
opaque values that no rule computes with or compares, here plain numbers. -/
structure Link where
  /-- the device handle `h` -/
  handle : Nat
  /-- the bulk OUT endpoint; a successful open always carries one (R215) -/
  outEp : Nat
  /-- the bulk IN endpoint, "if present"; recorded and read by no rule (R37) -/
  inEp : Option Nat
  /-- the claimed interface number -/
  iface : Nat
deriving DecidableEq, Repr

/-- The parameters of R7 that stay open: a claim holds for all their values. They are carried in the
state as data that no step writes (logs 4 and 5). -/
structure Params where
  /-- `QDEPTH`; `none` is the reference value, an unbounded queue (D5) -/
  queueDepth : Option Nat
  /-- `DRAIN_ON_SHUTDOWN` (D15) -/
  drainOnShutdown : Bool
deriving DecidableEq, Repr

/-- FREE VALUE (log 1): who moves at tick `n`: `true` the dispatcher, `false` a producer, with the
producer's number. Any interleaving is admitted (R68, R200). -/
opaque Config.schedule : Nat → Bool × Nat

/-- FREE VALUE (log 2): the environment's answer to draw `n`, a `PortOpen` of the destination with this
vendor id and product id (R215, R221). -/
opaque Config.openDraw : Nat → BitVec 16 → BitVec 16 → Option Link

/-- FREE VALUE (log 2): the environment's answer `(err, n)` to draw `n`, a `PortWrite` to this destination
and link of these bytes (R13, R221). The bound `n ≤ len(bytes)` is put on it where it is used. -/
opaque Config.writeDraw : Nat → Dest → Option Link → Bytes → Int × Nat

/-- FREE VALUE (log 3): whether SHUTDOWN closes head before bottom (D29: either order). -/
opaque Config.closeHeadFirst : Nat → Bool

/-- FREE VALUE (log 4): `DRAIN_ON_SHUTDOWN` of the machine that reset builds (R7, D15: open). -/
opaque Config.drainOnShutdown : Bool

end Sys2Proof
end

