-- ==== Sys2Proof/Machine/Constants.lean ====
section
/-! DEFINITION. The constants of R6, each named once, so that a corrected literal is changed in one place
(93_implementation_defined.md U12). -/

namespace Sys2Proof.Machine

/-- `TYPE` -/
def typeField : BitVec 16 := 0xA403#16

/-- `SUBTYPE` -/
def subtypeField : BitVec 16 := 0x0000#16

/-- `FRAME_HEAD` -/
def frameHeadField : BitVec 16 := 0xFFA5#16

/-- `UNUSED_LEN` -/
def unusedLen : Nat := 7

/-- `HDR_LEN`: the bytes before `frame_head` -/
def hdrLen : Nat := 16

/-- `ACK_DEFAULT`: the caller's default; FSRM stores none (D3) -/
def ackDefault : Byte := 0x01#8

/-- `CONTENT_EXTRA` -/
def contentExtra : Nat := 6

/-- `MMNN_EXTRA` -/
def mmnnExtra : Nat := 1

/-- `N_MAX`: the greatest admitted `len(datas)` -/
def nMax : Nat := 65534

/-- `SENTINEL` -/
def sentinel : Int := -1

/-- `TAG_HEAD` -/
def tagHeadValue : Byte := 0x01#8

/-- `TAG_BOTTOM` -/
def tagBottomValue : Byte := 0x02#8

/-- `TAG_BROADCAST` -/
def tagBroadcastValue : Byte := 0x03#8

/-- `RECONNECT_PERIOD` -/
def reconnectPeriod : Nat := 10

/-- `USB_VID` -/
def usbVid : BitVec 16 := 0x0483#16

/-- `USB_PID_HEAD` and `USB_PID_BOTTOM` -/
def usbPid : Dest → BitVec 16
  | .head => 0x5741#16
  | .bottom => 0x5740#16

/-- `FILTER_COVERS_MODE` (R7): decided true (D2, log 6) -/
def filterCoversMode : Bool := true

end Sys2Proof.Machine
end

