-- ==== Sys2Proof/Syntax.lean ====
section
/-! DEFINITION. The syntax: one constructor of `Instr` per row of spec/opcode_table.json, and the items (encoded
words of each format, R90) that decode to them. -/

namespace Sys2Proof

/-- `Message.kind` (R34, R100): three constructors, the reserved code 11 cannot be held. -/
inductive MsgKind
  | sendToHead
  | sendToBottom
  | sendToPoint
deriving DecidableEq, Repr

/-- `Message` (R34, R100): the unit held by the queue. -/
structure Message where
  kind : MsgKind
  data : Bytes
deriving DecidableEq, Repr

/-- One pair `(d, bytes)` of a message's route: a write attempt still to make (R36, R210). -/
structure Attempt where
  dest : Dest
  bytes : Bytes
deriving DecidableEq, Repr

/-- The operations and formats of spec/opcode_table.json, one constructor per row, operands already pulled
out of the encoding. An element of `orderedBytes` is its 8-bit lane (R102). -/
inductive Instr
  /-- row BUILDPAYLOAD, R131 -/
  | buildPayload (mode : Byte) (orderedBytes : Bytes)
  /-- row COMPUTEFRAME, R132 -/
  | computeFrame (ack : Byte) (datas : Bytes)
  /-- row APPENDTAG, R133 -/
  | appendTag (frame : Bytes) (tag : Byte)
  /-- row SENDHEAD, R171 -/
  | sendHead (bytes : Bytes)
  /-- row SENDBOTTOM, R172 -/
  | sendBottom (bytes : Bytes)
  /-- row SENDPOINT, R173 -/
  | sendPoint (rbuf : Bytes)
  /-- row WAITPENDING, R174 -/
  | waitPending
  /-- row SHUTDOWN, R175 -/
  | shutdown
  /-- row CMD.reserved, R101: command bytes 0x08 to 0xFF -/
  | cmdReserved (op : Byte) (operands : Bytes)
  /-- row SENDCMD, R107 and R176: the pseudo-operation -/
  | sendCmd (mode : Byte) (orderedBytes : Bytes) (ack : Byte) (tag : Byte)
  /-- row KIND.SendToHead, R202: the dispatcher takes a message of this kind -/
  | kindSendToHead (data : Bytes)
  /-- row KIND.SendToBottom, R203 -/
  | kindSendToBottom (data : Bytes)
  /-- row KIND.SendToPoint, R204 -/
  | kindSendToPoint (data : Bytes)
  /-- row KIND.reserved, R100: code 11 -/
  | kindReserved (data : Bytes)
  /-- row TAG.head, R205: the second decode stage, on the stripped bytes -/
  | tagHead (frame : Bytes)
  /-- row TAG.bottom, R206 -/
  | tagBottom (frame : Bytes)
  /-- row TAG.broadcast, R207 -/
  | tagBroadcast (frame : Bytes)
  /-- row TAG.reserved, R208: the 253 other tag values -/
  | tagReserved (frame : Bytes) (tag : Byte)
  /-- row FRAME, R91 and R109: the fields a frame stores besides its constant ones -/
  | frame (msgSize : BitVec 32) (ack1 ack2 : Byte) (mmnn : BitVec 16) (datas : Bytes) (checksum : Byte)
  /-- row RBUF, R97 -/
  | rbuf (frame : Bytes) (tag : Byte)
  /-- row CMDPAYLOAD, R102 -/
  | cmdPayload (mode : Byte) (orderedBytes : Bytes)
deriving DecidableEq, Repr

/-- The `format` column of spec/opcode_table.json: each is an encoding space of its own (R90, R108). -/
inductive Format
  | cmd
  | pseudo
  | kind
  | tag
  | frame
  | rbuf
  | payload
deriving DecidableEq, Repr

/-- One encoded item: the bytes of a format (R90). The pseudo-operation has no encoding of its own
(R107), so its operands stand as they are (log 10). -/
inductive Item
  /-- one command transaction: the command byte, then the operand bytes (R101, log 7) -/
  | command (bytes : Bytes)
  /-- the operands of `SENDCMD` -/
  | pseudo (mode : Byte) (orderedBytes : Bytes) (ack tag : Byte)
  /-- a message with its 2-bit kind code (R100) -/
  | message (code : BitVec 2) (data : Bytes)
  /-- the data of a SendToPoint message: bytes, then one tag byte (R97, R98) -/
  | tagged (bytes : Bytes)
  /-- the bytes of a frame (R91) -/
  | frame (bytes : Bytes)
  /-- the bytes of a routed buffer (R97) -/
  | routed (bytes : Bytes)
  /-- the bytes of a CommandPayload: mode, then elements (R102) -/
  | payload (bytes : Bytes)
deriving DecidableEq, Repr

/-- The format an instruction's row stands in. -/
def Instr.format : Instr → Format
  | .buildPayload _ _ => .cmd
  | .computeFrame _ _ => .cmd
  | .appendTag _ _ => .cmd
  | .sendHead _ => .cmd
  | .sendBottom _ => .cmd
  | .sendPoint _ => .cmd
  | .waitPending => .cmd
  | .shutdown => .cmd
  | .cmdReserved _ _ => .cmd
  | .sendCmd _ _ _ _ => .pseudo
  | .kindSendToHead _ => .kind
  | .kindSendToBottom _ => .kind
  | .kindSendToPoint _ => .kind
  | .kindReserved _ => .kind
  | .tagHead _ => .tag
  | .tagBottom _ => .tag
  | .tagBroadcast _ => .tag
  | .tagReserved _ _ => .tag
  | .frame _ _ _ _ _ _ => .frame
  | .rbuf _ _ => .rbuf
  | .cmdPayload _ _ => .payload

/-- The format an item is in. -/
def Item.format : Item → Format
  | .command _ => .cmd
  | .pseudo _ _ _ _ => .pseudo
  | .message _ _ => .kind
  | .tagged _ => .tag
  | .frame _ => .frame
  | .routed _ => .rbuf
  | .payload _ => .payload

/-- Why an item decodes to no instruction. -/
inductive DecodeError
  /-- an empty command transaction: there is no command byte -/
  | noCommandByte
  /-- the operation has an operand byte that the transaction does not hold -/
  | missingOperand
  /-- WAITPENDING and SHUTDOWN have no operands, and the transaction holds more bytes -/
  | extraOperand
  /-- the data of a SendToPoint message is empty: there is no tag byte (R209) -/
  | noTagByte
  /-- the bytes do not match the frame pattern of R109, or stop before the checksum -/
  | notAFrame
  /-- an empty routed buffer or payload: its one obligatory byte is missing -/
  | emptyItem
deriving DecidableEq, Repr

end Sys2Proof
end

