-- ==== Sys2Proof/Machine/Operands.lean ====
section
/-! DEFINITION. The operand forms: the element map of R9, the sequence and number primitives of R10 and R11, and
the route of a message, R202 to R209. -/

namespace Sys2Proof.Machine

/-- `s8_of_u8` (R9): the signed value of an 8-bit lane. -/
def s8OfU8 (b : Byte) : Int :=
  if b.toNat < 128 then (b.toNat : Int) else (b.toNat : Int) - 256

/-- `u8_of_s8` (R9): two's complement for the negative values (log 20). -/
def u8OfS8 (e : Int) : Byte :=
  BitVec.ofNat 8 (if 0 ≤ e then e else e + 256).toNat

/-- `low8` (R11): `v mod 256`. -/
def low8 (v : Nat) : Byte := BitVec.ofNat 8 v

/-- `be16` (R11), for `v ≤ 65535`. -/
def be16 (v : Nat) : Bytes := [low8 (v / 256), low8 v]

/-- `be32` (R11), for `v < 2^32`. -/
def be32 (v : Nat) : Bytes :=
  [low8 (v / 2 ^ 24), low8 (v / 2 ^ 16), low8 (v / 2 ^ 8), low8 v]

/-- The big-endian value of a byte sequence, as a reader of a field takes it (R61, R62). -/
def beNat (bs : Bytes) : Nat := bs.foldl (fun acc b => acc * 256 + b.toNat) 0

/-- `sum` (R10): the sum of the unsigned values. -/
def sumBytes (bs : Bytes) : Nat := (bs.map BitVec.toNat).sum

/-- `s[i..j]` (R10): indices `i` up to and including `j - 1`. -/
def slice (s : Bytes) (i j : Nat) : Bytes := (s.drop i).take (j - i)

/-- `init(s)` and `last(s)` of a non-empty sequence (R10). -/
def splitLast : Bytes → Option (Bytes × Byte)
  | [] => none
  | b :: bs =>
    match splitLast bs with
    | none => some ([], b)
    | some (front, z) => some (b :: front, z)

/-- The route a tag value gives the stripped bytes (R205 to R208); a reserved tag gives none (log 18). -/
def tagRoute (frame : Bytes) (tag : Byte) : List Attempt :=
  if tag = tagHeadValue then [⟨.head, frame⟩]
  else if tag = tagBottomValue then [⟨.bottom, frame⟩]
  else if tag = tagBroadcastValue then [⟨.head, frame⟩, ⟨.bottom, frame⟩]
  else []

/-- `Route` (R202 to R209): the write attempts of a message, in order. -/
def route (m : Message) : List Attempt :=
  match m.kind with
  | .sendToHead => [⟨.head, m.data⟩]
  | .sendToBottom => [⟨.bottom, m.data⟩]
  | .sendToPoint =>
    match splitLast m.data with
    | none => []
    | some (frame, tag) => tagRoute frame tag

/-- The 2-bit code of a message kind (R100; it equals `op - 3` of its send command, R101). -/
def kindCode : MsgKind → BitVec 2
  | .sendToHead => 0#2
  | .sendToBottom => 1#2
  | .sendToPoint => 2#2

end Sys2Proof.Machine
end

