-- ==== Sys2Proof/Machine/Flags.lean ====
section
/-! DEFINITION. FSRM has no condition codes (R33). Here stand the values it computes and tests: the checksum of a
frame (R134) with its reference datapath (R137), the failure predicate (R211) and the reconnect test (R212). -/

namespace Sys2Proof.Machine

/-- The checksum (R134): low 8 bits of the sum of the two `frame_head` bytes, `ack`, the number `mmnn`
(R135) and the payload bytes. -/
def checksum (ack : Byte) (datas : Bytes) : Byte :=
  low8 (sumBytes (be16 frameHeadField.toNat) + ack.toNat + (datas.length + mmnnExtra) + sumBytes datas)

/-- The byte-serial reference datapath (R137, informative): `ACC` of 8 bits and `CNT` of 16 bits, alive only
during this computation. -/
def referenceChecksum (ack : Byte) (datas : Bytes) : Byte :=
  let cnt : BitVec 16 := BitVec.ofNat 16 datas.length
  datas.foldl (fun acc b => acc + b) (0xA4#8 + ack + low8 (cnt.toNat + 1))

/-- `Failed(err, n)` (R211). -/
def failed (err : Int) (n : Nat) : Bool := err != 0 || n == 0

/-- Whether a new failure count triggers a reconnect cycle (R212). -/
def reconnectDue (count : Nat) : Bool := count % reconnectPeriod == 0

end Sys2Proof.Machine
end

