-- ==== Sys2Proof/Machine/Codec.lean ====
section
/-! DEFINITION. The frame serializer as pure functions (R130): BUILDPAYLOAD (R131), COMPUTEFRAME (R132), APPENDTAG
(R133), and the frame's layout (R91), pattern (R109) and well-formedness (R105). -/

namespace Sys2Proof.Machine

/-- BUILDPAYLOAD (R131), both readings of `FILTER_COVERS_MODE` (log 6). -/
def buildPayloadWith (coversMode : Bool) (mode : Byte) (orderedBytes : Bytes) : Bytes :=
  if coversMode then
    (((mode :: orderedBytes).map s8OfU8).filter (fun e => e != sentinel)).map u8OfS8
  else
    mode :: ((orderedBytes.map s8OfU8).filter (fun e => e != sentinel)).map u8OfS8

/-- BUILDPAYLOAD (R131) with the value R7 takes. -/
def buildPayload (mode : Byte) (orderedBytes : Bytes) : Bytes :=
  buildPayloadWith filterCoversMode mode orderedBytes

/-- The frame layout (R91): the constant fields and the stored ones, in offset order. -/
def layoutFrame (msgSize : Nat) (ack1 ack2 : Byte) (mmnn : Nat) (datas : Bytes) (ck : Byte) : Bytes :=
  be16 typeField.toNat ++ be16 subtypeField.toNat ++ be32 msgSize ++ [ack1] ++
    List.replicate unusedLen 0x00#8 ++ be16 frameHeadField.toNat ++ [ack2] ++ be16 mmnn ++ datas ++ [ck]

/-- The frame of `ack` and `datas` (R132): `msg_size = N + 6`, `mmnn = N + 1`. -/
def frameBytes (ack : Byte) (datas : Bytes) : Bytes :=
  layoutFrame (datas.length + contentExtra) ack ack (datas.length + mmnnExtra) datas (checksum ack datas)

/-- COMPUTEFRAME (R132): no frame for more than `N_MAX` payload bytes. -/
def computeFrame (ack : Byte) (datas : Bytes) : Option Bytes :=
  if nMax < datas.length then none else some (frameBytes ack datas)

/-- APPENDTAG (R133). -/
def appendTag (frame : Bytes) (tag : Byte) : Bytes := frame ++ [tag]

/-- The match bytes of R109 (offsets 0 to 20). -/
def framePattern : Bytes :=
  [0xA4, 0x03, 0x00, 0x00, 0x00, 0x00, 0x00, 0x00, 0x00, 0x00, 0x00, 0x00, 0x00, 0x00, 0x00, 0x00,
    0xFF, 0xA5, 0x00, 0x00, 0x00]

/-- The mask bytes of R109. -/
def frameMask : Bytes :=
  [0xFF, 0xFF, 0xFF, 0xFF, 0xFF, 0xFE, 0x00, 0x00, 0x00, 0xFF, 0xFF, 0xFF, 0xFF, 0xFF, 0xFF, 0xFF,
    0xFF, 0xFF, 0x00, 0x00, 0x00]

/-- Whether the first 21 bytes match the pattern under the mask (R109). -/
def matchesFrame (bs : Bytes) : Bool :=
  List.zipWith (fun b m => b &&& m) (bs.take 21) frameMask == framePattern

/-- The relations between a frame's stored fields (R105): the field part of its well-formedness. -/
def frameFieldsOk (msgSize : BitVec 32) (ack1 ack2 : Byte) (mmnn : BitVec 16) (datas : Bytes)
    (ck : Byte) : Bool :=
  datas.length ≤ nMax && msgSize.toNat == datas.length + contentExtra && ack1 == ack2 &&
    mmnn.toNat == datas.length + mmnnExtra && ck == checksum ack1 datas

/-- The well-formedness predicate of R105 for the `ack` value `a`, clause by clause. -/
def frameWellFormed (a : Byte) (f : Bytes) : Bool :=
  let n := f.length - 22
  22 ≤ f.length && n ≤ nMax && slice f 0 4 == [0xA4, 0x03, 0x00, 0x00] && slice f 4 8 == be32 (n + 6) &&
    slice f 8 9 == [a] && slice f 9 16 == List.replicate 7 0x00 && slice f 16 18 == [0xFF, 0xA5] &&
    slice f 18 19 == [a] && slice f 19 21 == be16 (n + 1) &&
    slice f (21 + n) (22 + n) == [low8 (0xFF + 0xA5 + a.toNat + (n + 1) + sumBytes (slice f 21 (21 + n)))]

end Sys2Proof.Machine
end

