-- ==== Sys2Proof/WellFormed.lean ====
section
/-! DEFINITION. Which instructions are well formed: first the operand ranges their encoding admits, then the
contracts the spec puts on a caller. -/

namespace Sys2Proof

/-- The operand values an instruction's encoding admits (R98, R99, R101, R109). -/
def Instr.encodable : Instr → Bool
  | .buildPayload _ _ => true
  | .computeFrame _ _ => true
  | .appendTag _ _ => true
  | .sendHead _ => true
  | .sendBottom _ => true
  | .sendPoint _ => true
  | .waitPending => true
  | .shutdown => true
  | .cmdReserved op _ => 8 ≤ op.toNat
  | .sendCmd _ _ _ _ => true
  | .kindSendToHead _ => true
  | .kindSendToBottom _ => true
  | .kindSendToPoint _ => true
  | .kindReserved _ => true
  | .tagHead _ => true
  | .tagBottom _ => true
  | .tagBroadcast _ => true
  | .tagReserved _ tag => tag.toNat == 0 || 4 ≤ tag.toNat
  | .frame msgSize _ _ _ _ _ => msgSize.toNat < 2 ^ 17
  | .rbuf _ _ => true
  | .cmdPayload _ _ => true

/-- The contracts on operands: the length bound of COMPUTEFRAME (R132) and of SENDCMD through it (R176,
R296), and the relations between a frame's fields (R105). -/
def Instr.contract : Instr → Bool
  | .buildPayload _ _ => true
  | .computeFrame _ datas => datas.length ≤ Machine.nMax
  | .appendTag _ _ => true
  | .sendHead _ => true
  | .sendBottom _ => true
  | .sendPoint _ => true
  | .waitPending => true
  | .shutdown => true
  | .cmdReserved _ _ => true
  | .sendCmd mode es _ _ => (Machine.buildPayload mode es).length ≤ Machine.nMax
  | .kindSendToHead _ => true
  | .kindSendToBottom _ => true
  | .kindSendToPoint _ => true
  | .kindReserved _ => true
  | .tagHead _ => true
  | .tagBottom _ => true
  | .tagBroadcast _ => true
  | .tagReserved _ _ => true
  | .frame msgSize ack1 ack2 mmnn datas ck => Machine.frameFieldsOk msgSize ack1 ack2 mmnn datas ck
  | .rbuf _ _ => true
  | .cmdPayload _ _ => true

/-- An instruction whose encoding exists and whose caller kept its contract. -/
def Instr.wellFormed (i : Instr) : Bool := i.encodable && i.contract

end Sys2Proof
end

