-- ==== Sys2Proof/Decode.lean ====
section
/-! DEFINITION. The decoder, total on the items of every format and rejecting by name, and after it the encoder,
both from the tables of 30_encoding.md. -/

namespace Sys2Proof

/-- A command transaction (R101): the command byte, then the operand bytes in the order of R106 (log 7). The
tag of APPENDTAG is the last byte. -/
def decodeCommand : Bytes → Except DecodeError Instr
  | [] => .error .noCommandByte
  | op :: rest =>
    match op.toNat with
    | 0 =>
      match rest with
      | [] => .error .missingOperand
      | mode :: es => .ok (.buildPayload mode es)
    | 1 =>
      match rest with
      | [] => .error .missingOperand
      | ack :: datas => .ok (.computeFrame ack datas)
    | 2 =>
      match Machine.splitLast rest with
      | none => .error .missingOperand
      | some (frame, tag) => .ok (.appendTag frame tag)
    | 3 => .ok (.sendHead rest)
    | 4 => .ok (.sendBottom rest)
    | 5 => .ok (.sendPoint rest)
    | 6 => if rest = [] then .ok .waitPending else .error .extraOperand
    | 7 => if rest = [] then .ok .shutdown else .error .extraOperand
    | _ => .ok (.cmdReserved op rest)

/-- The first decode stage of the mux: the kind code (R100, R108). -/
def decodeKind (code : BitVec 2) (data : Bytes) : Instr :=
  match code.toNat with
  | 0 => .kindSendToHead data
  | 1 => .kindSendToBottom data
  | 2 => .kindSendToPoint data
  | _ => .kindReserved data

/-- The second decode stage, on the stripped bytes and the tag: a whole-value match (R98, R99, R108). -/
def decodeTag (frame : Bytes) (tag : Byte) : Instr :=
  if tag = Machine.tagHeadValue then .tagHead frame
  else if tag = Machine.tagBottomValue then .tagBottom frame
  else if tag = Machine.tagBroadcastValue then .tagBroadcast frame
  else .tagReserved frame tag

/-- A frame by its pattern (R109) and layout (R91); whether its fields agree is `Instr.contract`. -/
def decodeFrame (bs : Bytes) : Except DecodeError Instr :=
  if Machine.matchesFrame bs then
    match Machine.slice bs 8 9, Machine.slice bs 18 19, Machine.splitLast (bs.drop 21) with
    | [ack1], [ack2], some (datas, ck) =>
      .ok (.frame (BitVec.ofNat 32 (Machine.beNat (Machine.slice bs 4 8))) ack1 ack2
        (BitVec.ofNat 16 (Machine.beNat (Machine.slice bs 19 21))) datas ck)
    | _, _, _ => .error .notAFrame
  else .error .notAFrame

/-- The decoder: one item, of whatever format, gives one instruction or a rejection by name. -/
def decode : Item → Except DecodeError Instr
  | .command bytes => decodeCommand bytes
  | .pseudo mode es ack tag => .ok (.sendCmd mode es ack tag)
  | .message code data => .ok (decodeKind code data)
  | .tagged bytes =>
    match Machine.splitLast bytes with
    | none => .error .noTagByte
    | some (frame, tag) => .ok (decodeTag frame tag)
  | .frame bytes => decodeFrame bytes
  | .routed bytes =>
    match Machine.splitLast bytes with
    | none => .error .emptyItem
    | some (frame, tag) => .ok (.rbuf frame tag)
  | .payload bytes =>
    match bytes with
    | [] => .error .emptyItem
    | mode :: es => .ok (.cmdPayload mode es)

/-- The encoder: the item of an instruction, from the same tables. -/
def encode : Instr → Item
  | .buildPayload mode es => .command (0x00#8 :: mode :: es)
  | .computeFrame ack datas => .command (0x01#8 :: ack :: datas)
  | .appendTag frame tag => .command (0x02#8 :: (frame ++ [tag]))
  | .sendHead bytes => .command (0x03#8 :: bytes)
  | .sendBottom bytes => .command (0x04#8 :: bytes)
  | .sendPoint rbuf => .command (0x05#8 :: rbuf)
  | .waitPending => .command [0x06#8]
  | .shutdown => .command [0x07#8]
  | .cmdReserved op operands => .command (op :: operands)
  | .sendCmd mode es ack tag => .pseudo mode es ack tag
  | .kindSendToHead data => .message 0#2 data
  | .kindSendToBottom data => .message 1#2 data
  | .kindSendToPoint data => .message 2#2 data
  | .kindReserved data => .message 3#2 data
  | .tagHead frame => .tagged (frame ++ [Machine.tagHeadValue])
  | .tagBottom frame => .tagged (frame ++ [Machine.tagBottomValue])
  | .tagBroadcast frame => .tagged (frame ++ [Machine.tagBroadcastValue])
  | .tagReserved frame tag => .tagged (frame ++ [tag])
  | .frame msgSize ack1 ack2 mmnn datas ck =>
    .frame (Machine.layoutFrame msgSize.toNat ack1 ack2 mmnn.toNat datas ck)
  | .rbuf frame tag => .routed (frame ++ [tag])
  | .cmdPayload mode es => .payload (mode :: es)

/-- The item the dispatcher fetches for a queued message (R100, R108). -/
def encodeMessage (m : Message) : Item := .message (Machine.kindCode m.kind) m.data

/-- The low `n` bytes of a number, the least significant first: the order in which spec/opcode_table.json
numbers an instruction's bits. -/
def wordBytes : Nat → Nat → Bytes
  | 0, _ => []
  | n + 1, w => Machine.low8 w :: wordBytes n (w / 256)

/-- How many operand bytes a command cannot do without (R101, R106). -/
def obligatoryOperands (op : Byte) : Nat := if op.toNat ≤ 2 then 1 else 0

/-- The item a table word stands for (log 8). 168 bits are the row FRAME (R109), and the checksum byte above
them is zero. Every other width is a command transaction: the command byte, the bytes the word holds, and
zeros for the obligatory operand bytes it does not hold. -/
def tableItem (nbits w : Nat) : Item :=
  if nbits = 168 then .frame (wordBytes 21 w ++ [0x00#8])
  else
    let op := Machine.low8 w
    let given := wordBytes (nbits / 8 - 1) (w / 256)
    .command (op :: (given ++ List.replicate (obligatoryOperands op - given.length) 0x00#8))

/-- The instruction the decoder reads from a table word. -/
def decodeTableWord (nbits w : Nat) : Option Instr :=
  match decode (tableItem nbits w) with
  | .ok i => some i
  | .error _ => none

end Sys2Proof
end

