-- ==== Sys2Proof/Machine/State.lean ====
section
/-! DEFINITION. The state (R30) as plain data, the model's own bookkeeping fields beside it, the reasons a step can
stop, and the state after reset (R45). -/

namespace Sys2Proof.Machine

/-- The dispatcher's phase `S.W` (R36). The pending sequence of `Busy` is non-empty by its form. -/
inductive Phase
  | idle
  | busy (now : Attempt) (rest : List Attempt)
  | exited
deriving DecidableEq, Repr

/-- The verdict of a write attempt (R211, R220). -/
inductive Verdict
  | ok
  | fail
deriving DecidableEq, Repr

/-- The four kinds of port event (R220). -/
inductive PortEvent
  /-- `OPEN(d, r)` -/
  | opened (d : Dest) (r : Option Link)
  /-- `CLOSE(d)` -/
  | closed (d : Dest)
  /-- `WRITE(d, bytes, err, n)` -/
  | wrote (d : Dest) (bytes : Bytes) (err : Int) (n : Nat)
  /-- `ATTEMPT(d, bytes, verdict)` -/
  | attempted (d : Dest) (bytes : Bytes) (v : Verdict)
deriving DecidableEq, Repr

/-- The per-destination record (R37). `link` is `handle` together with the three fields that mean something
only while a handle is held; without one the record carries only `failCount` (R37, D31, log 16). -/
structure EndpointSet where
  link : Option Link
  failCount : Nat
deriving DecidableEq, Repr

/-- A result of a serializer operation, handed to the producer that issued it (log 13). -/
structure Response where
  caller : Nat
  bytes : Bytes
deriving DecidableEq, Repr

/-- Who moves in a step (R200, R263). -/
inductive Agent
  | producer
  | dispatcher
deriving DecidableEq, Repr

/-- The state. The first block is the record `S` of R30, the second what R175 and R267 imply, the third the
parameters of R7, the rest the model's own fields (INVENTORY.md, logs 1, 2, 13, 14, 15). -/
structure State where
  /-- `S.Q` (R34), head first -/
  q : List Message
  /-- `S.running` (R35) -/
  running : Bool
  /-- `S.W` (R36) -/
  w : Phase
  /-- `S.EP[head]` (R37) -/
  head : EndpointSet
  /-- `S.EP[bottom]` (R37) -/
  bottom : EndpointSet
  /-- `S.halted` (R40) -/
  halted : Bool
  /-- `S.T` (R41), oldest event first -/
  trace : List PortEvent
  /-- the producer whose SHUTDOWN is in progress (R175 corner case iii, log 12) -/
  stopping : Option Nat
  /-- the producers blocked inside their current command (R267, log 11) -/
  suspended : List Nat
  /-- `QDEPTH` and `DRAIN_ON_SHUTDOWN` (R7), written by no step (logs 4 and 5) -/
  params : Params
  /-- model: the items each producer still issues, in its program order (R68, log 14) -/
  streams : List (List Item)
  /-- model: the results handed out so far, oldest first (log 13) -/
  responses : List Response
  /-- model: whose turn it is (log 1) -/
  turn : Agent
  /-- model: the producer whose turn it is, when it is a producer's (log 1) -/
  caller : Nat
  /-- model: the counter the schedule is applied to (log 1) -/
  ticks : Nat
  /-- model: the counter the environment's answers are applied to (log 2) -/
  draws : Nat
deriving DecidableEq, Repr

/-- FSRM has no fault outcome: "no input makes the block trap or stop" (R14, R250). No operation of the
model answers with a fault, so there is no reason for one. -/
inductive Fault
deriving DecidableEq, Repr

/-- Why an operation has no meaning (R14). Every one is safe: no state follows. -/
inductive Refusal
  /-- An arm of `exec` without a meaning; raised by `exec` alone. Safe. -/
  | notModelled (mnemonic : String)
  /-- COMPUTEFRAME, and SENDCMD through it, with more than `N_MAX` payload bytes (R132, R252). Safe. -/
  | payloadTooLong
  /-- A mux command issued after SHUTDOWN has completed (R178). Safe. -/
  | halted
  /-- A second SHUTDOWN while the first is in progress (R175 corner case iii). Safe. -/
  | shutdownInProgress
  /-- A command byte 0x08 to 0xFF (R101). Safe. -/
  | reservedCommand (op : Byte)
  /-- The message kind code 11, which no command produces (R100). Safe. -/
  | reservedKind
  /-- A FRAME whose fields do not agree: FSRM cannot emit one (R92, R104, R105). Safe. -/
  | illFormedFrame
  /-- An item that decodes to no instruction; raised by `step`. Safe. -/
  | undecodable (e : DecodeError)
  /-- A producer presents an item of a format that is no operation of a user's: a message, a tagged buffer, a
  frame, a routed buffer or a payload (R103, R108); raised by `step`. Safe. -/
  | notIssuable
deriving DecidableEq, Repr

/-- A destination's record after reset: Disconnected, count 0 (R45). -/
def EndpointSet.reset : EndpointSet := { link := none, failCount := 0 }

/-- The state after reset (R45, R281). Reset makes no port request. The reset values of the model's own
fields are DESIGN CHOICE (log 15). -/
def State.reset : State where
  q := []
  running := true
  w := .idle
  head := EndpointSet.reset
  bottom := EndpointSet.reset
  halted := false
  trace := []
  stopping := none
  suspended := []
  params := { queueDepth := none, drainOnShutdown := Config.drainOnShutdown }
  streams := []
  responses := []
  turn := .producer
  caller := 0
  ticks := 0
  draws := 0

end Sys2Proof.Machine
end

