-- ==== Sys2Proof/Machine/Ops.lean ====
section
/-! DEFINITION. The named operations over the state: the queue and port primitives of R13, the port boundary of
R215 and R216, the failure path of R258 (the analogue of taking an exception) with its return (R259), the
write attempt of R210, and what a command does to the producer that issued it. -/

namespace Sys2Proof.Machine

/-- What `S <- value` means when the value is reached through an outcome: change the next state only. -/
def onNext (f : State → State) : Host.Outcome State Fault Refusal → Host.Outcome State Fault Refusal
  | .next s => .next (f s)
  | .fault r => .fault r
  | .refused r => .refused r

/-- `S.EP[d]` (R12). -/
def State.ep (s : State) : Dest → EndpointSet
  | .head => s.head
  | .bottom => s.bottom

/-- `S.EP[d] <- e` (R12). -/
def State.setEp (s : State) (d : Dest) (e : EndpointSet) : State :=
  match d with
  | .head => { s with head := e }
  | .bottom => { s with bottom := e }

/-- Append one event to the port trace (R41, R220). -/
def State.record (s : State) (ev : PortEvent) : State := { s with trace := s.trace ++ [ev] }

/-- `QPush(m)` (R13). -/
def State.push (s : State) (m : Message) : State := { s with q := s.q ++ [m] }

/-- Whether a push has room (R34): always in the reference model. -/
def State.hasRoom (s : State) : Bool :=
  match s.params.queueDepth with
  | none => true
  | some depth => s.q.length < depth

/-- `S.W <- p`, where an empty list of pending attempts means `Idle` (R201, R218). -/
def phaseOf : List Attempt → Phase
  | [] => .idle
  | a :: rest => .busy a rest

/-- The second half of DEQUEUE (R201): the dispatcher, which is `Idle`, takes up a route. In any other phase
DEQUEUE is not enabled and there is no step. -/
def State.startRoute (s : State) (p : List Attempt) : State :=
  match s.w with
  | .idle => { s with w := phaseOf p }
  | .busy _ _ => s
  | .exited => s

/-! ### The port boundary -/

/-- `OpenDevice(d)` with the drawn result `r` (R215). `fail_count` is not touched. -/
def State.openDevice (s : State) (d : Dest) (r : Option Link) : State :=
  let s' := s.record (.opened d r)
  match r with
  | none => s'
  | some l => s'.setEp d { s'.ep d with link := some l }

/-- `CloseDevice(d)` (R216). `fail_count` is kept. -/
def State.closeDevice (s : State) (d : Dest) : State :=
  let s' := s.record (.closed d)
  s'.setEp d { s'.ep d with link := none }

/-- `Connected(d)` (R39). -/
def State.connected (s : State) (d : Dest) : Bool := (s.ep d).link.isSome

/-- `if S.EP[d].handle ≠ none then CloseDevice(d)` (R175, R213). -/
def State.closeIfConnected (s : State) (d : Dest) : State :=
  if s.connected d then s.closeDevice d else s

/-- `Reconnect(d)` with the drawn result of the reopen (R213). -/
def State.reconnect (s : State) (d : Dest) (r : Option Link) : State :=
  (s.closeIfConnected d).openDevice d r

/-- `if S.EP[d].handle = none then OpenDevice(d)`, the lazy open of a write attempt (R210). -/
def State.lazyOpen (s : State) (d : Dest) (r : Option Link) : State :=
  if s.connected d then s else s.openDevice d r

/-- Both closes of SHUTDOWN, step 3 (R175), in the given order (D29). -/
def State.closeBoth (s : State) (headFirst : Bool) : State :=
  if headFirst then (s.closeIfConnected .head).closeIfConnected .bottom
  else (s.closeIfConnected .bottom).closeIfConnected .head

/-! ### The failure path and the write attempt -/

/-- `S.EP[d].fail_count <- c` -/
def State.setFailCount (s : State) (d : Dest) (c : Nat) : State := s.setEp d { s.ep d with failCount := c }

/-- TAKING AN ERROR, the analogue of trap entry (R258): it saves nothing, counts the failure, and on a
multiple of 10 runs the reconnect cycle with the drawn reopen result (R212, R213). -/
def State.takeFailure (s : State) (d : Dest) (reopen : Option Link) : State :=
  let c := (s.ep d).failCount + 1
  let s' := s.setFailCount d c
  if reconnectDue c then s'.reconnect d reopen else s'

/-- THE RETURN from the failure path (R259): a success clears the count and restores nothing else (R214). -/
def State.takeSuccess (s : State) (d : Dest) : State := s.setFailCount d 0

/-- The environment's answers that one write attempt may ask for (R221): the lazy open, the write, the
reopen. An answer that is not asked for is not used. -/
structure Draws where
  lazy : Option Link
  err : Int
  moved : Nat
  reopen : Option Link
deriving DecidableEq, Repr

/-- The part of `WriteAttempt(d, bytes)` after the lazy open, by whether a handle is held (R210). The
number of bytes moved is at most the buffer's length (R13). -/
def State.writeOpened (s : State) (d : Dest) (bytes : Bytes) (a : Draws) : State :=
  if s.connected d then
    let n := min a.moved bytes.length
    let s' := s.record (.wrote d bytes a.err n)
    if failed a.err n then (s'.record (.attempted d bytes .fail)).takeFailure d a.reopen
    else (s'.record (.attempted d bytes .ok)).takeSuccess d
  else (s.record (.attempted d bytes .fail)).takeFailure d a.reopen

/-- `WriteAttempt(d, bytes)` (R210). -/
def State.writeAttempt (s : State) (d : Dest) (bytes : Bytes) (a : Draws) : State :=
  (s.lazyOpen d a.lazy).writeOpened d bytes a

/-- The answers the environment gives to the attempt that starts at this state's draw counter (log 2). -/
def State.attemptDraws (s : State) (d : Dest) (bytes : Bytes) : Draws :=
  let opened := Config.openDraw s.draws usbVid (usbPid d)
  let link := if s.connected d then (s.ep d).link else opened
  let wr := Config.writeDraw (s.draws + 1) d link bytes
  { lazy := opened, err := wr.1, moved := wr.2,
    reopen := Config.openDraw (s.draws + 2) usbVid (usbPid d) }

/-! ### The producer that issued a command -/

/-- Hand a serializer result to the producer that issued the operation (log 13). -/
def State.respond (s : State) (bytes : Bytes) : State :=
  { s with responses := s.responses ++ [⟨s.caller, bytes⟩] }

/-- The command completes: its producer goes on to its next item and is no longer suspended (R68, R267). -/
def State.complete (s : State) : State :=
  { s with
    streams := s.streams.modify s.caller List.tail
    suspended := s.suspended.filter (fun p => p != s.caller) }

/-- The command is blocked: no step but that its producer is now suspended in it (R14, R267, log 11). -/
def State.suspend (s : State) : State :=
  { s with suspended := if s.caller ∈ s.suspended then s.suspended else s.caller :: s.suspended }

/-- Whether the acting producer is already inside its current command. -/
def State.isSuspended (s : State) : Bool := s.caller ∈ s.suspended

/-- A send command (R170): refused when halted, otherwise a push when there is room, otherwise the producer
waits. One that was already waiting when the block halted waits for ever (log 11). -/
def State.send (s : State) (m : Message) : Host.Outcome State Fault Refusal :=
  if s.halted then (if s.isSuspended then .next s else .refused .halted)
  else if s.hasRoom then .next (s.push m).complete
  else .next s.suspend

/-! ### Status observations -/

/-- `queue_empty` (R43). -/
def State.queueEmpty (s : State) : Bool := s.q.isEmpty

/-- `running` (R43). -/
def State.statusRunning (s : State) : Bool := s.running

/-- `connected[d]` (R43). -/
def State.statusConnected (s : State) (d : Dest) : Bool := s.connected d

/-- `fail_count[d]` (R43). -/
def State.statusFailCount (s : State) (d : Dest) : Nat := (s.ep d).failCount

end Sys2Proof.Machine
end

