-- ==== Sys2Proof/Machine/Routing.lean ====
section
/-! DEFINITION. The dispatcher's two decode stages (R108): the message kinds and the routing tags. Each is what
DEQUEUE (R201) does with a message once `QPop` has taken it off the queue (log 19). -/

namespace Sys2Proof.Machine

/-- KIND.SendToHead (R202). -/
def execKindSendToHead (data : Bytes) (s : State) : Host.Outcome State Fault Refusal :=
  .next (s.startRoute (route ⟨.sendToHead, data⟩))

/-- KIND.SendToBottom (R203). -/
def execKindSendToBottom (data : Bytes) (s : State) : Host.Outcome State Fault Refusal :=
  .next (s.startRoute (route ⟨.sendToBottom, data⟩))

/-- KIND.SendToPoint (R204 to R209): the trailing byte is stripped and decoded. -/
def execKindSendToPoint (data : Bytes) (s : State) : Host.Outcome State Fault Refusal :=
  .next (s.startRoute (route ⟨.sendToPoint, data⟩))

/-- KIND.reserved (R100): never produced by any command. -/
def execKindReserved (_data : Bytes) (_s : State) : Host.Outcome State Fault Refusal :=
  .refused .reservedKind

/-- TAG.head (R205). -/
def execTagHead (frame : Bytes) (s : State) : Host.Outcome State Fault Refusal :=
  .next (s.startRoute [⟨.head, frame⟩])

/-- TAG.bottom (R206). -/
def execTagBottom (frame : Bytes) (s : State) : Host.Outcome State Fault Refusal :=
  .next (s.startRoute [⟨.bottom, frame⟩])

/-- TAG.broadcast (R207): head first, then bottom, the same bytes. -/
def execTagBroadcast (frame : Bytes) (s : State) : Host.Outcome State Fault Refusal :=
  .next (s.startRoute [⟨.head, frame⟩, ⟨.bottom, frame⟩])

/-- TAG.reserved (R208, log 18): the message is consumed and nothing is written. -/
def execTagReserved (_frame : Bytes) (_tag : Byte) (s : State) : Host.Outcome State Fault Refusal :=
  .next (s.startRoute [])

end Sys2Proof.Machine
end

