-- ==== Sys2Proof/Machine/Serializer.lean ====
section
/-! DEFINITION. The serializer's operations (40_frame_codec.md) and the three layout rows of the opcode table, which
no step runs since a user issues operations only (R108, log 9).
They read and write no state of R30: a result goes to the producer that asked (log 13). -/

namespace Sys2Proof.Machine

/-- BUILDPAYLOAD (R131). -/
def execBuildPayload (mode : Byte) (orderedBytes : Bytes) (s : State) : Host.Outcome State Fault Refusal :=
  .next (s.respond (buildPayload mode orderedBytes)).complete

/-- COMPUTEFRAME (R132). -/
def execComputeFrame (ack : Byte) (datas : Bytes) (s : State) : Host.Outcome State Fault Refusal :=
  match computeFrame ack datas with
  | none => .refused .payloadTooLong
  | some f => .next (s.respond f).complete

/-- APPENDTAG (R133). -/
def execAppendTag (frame : Bytes) (tag : Byte) (s : State) : Host.Outcome State Fault Refusal :=
  .next (s.respond (appendTag frame tag)).complete

/-- The row FRAME (R91, R132, log 9): the serializer's output of a frame with these fields. It emits
well-formed frames only (R92, R104, R105). -/
def execFrame (msgSize : BitVec 32) (ack1 ack2 : Byte) (mmnn : BitVec 16) (datas : Bytes) (ck : Byte)
    (s : State) : Host.Outcome State Fault Refusal :=
  if frameFieldsOk msgSize ack1 ack2 mmnn datas ck then
    .next (s.respond (layoutFrame msgSize.toNat ack1 ack2 mmnn.toNat datas ck)).complete
  else .refused .illFormedFrame

/-- The row RBUF (R97, R133, log 9): the serializer's output of a routed buffer. -/
def execRbuf (frame : Bytes) (tag : Byte) (s : State) : Host.Outcome State Fault Refusal :=
  .next (s.respond (appendTag frame tag)).complete

/-- The row CMDPAYLOAD (R102, R131, log 9): a payload presented to the serializer's filter. -/
def execCmdPayload (mode : Byte) (orderedBytes : Bytes) (s : State) : Host.Outcome State Fault Refusal :=
  .next (s.respond (buildPayload mode orderedBytes)).complete

end Sys2Proof.Machine
end

