-- ==== Sys2Proof/Machine/Transport.lean ====
section
/-! DEFINITION. The commands of the routing mux (41_transport_commands.md), the pseudo-operation and the reserved
command bytes. -/

namespace Sys2Proof.Machine

/-- SENDHEAD (R171). -/
def execSendHead (bytes : Bytes) (s : State) : Host.Outcome State Fault Refusal :=
  s.send ⟨.sendToHead, bytes⟩

/-- SENDBOTTOM (R172). -/
def execSendBottom (bytes : Bytes) (s : State) : Host.Outcome State Fault Refusal :=
  s.send ⟨.sendToBottom, bytes⟩

/-- SENDPOINT (R173): the tag stays inside the data. -/
def execSendPoint (rbuf : Bytes) (s : State) : Host.Outcome State Fault Refusal :=
  s.send ⟨.sendToPoint, rbuf⟩

/-- WAITPENDING (R174): refused when issued after the halt, otherwise it completes once the queue is empty. -/
def execWaitPending (s : State) : Host.Outcome State Fault Refusal :=
  if s.halted && !s.isSuspended then .refused .halted
  else if s.q.isEmpty then .next s.complete
  else .next s.suspend

/-- SHUTDOWN (R175). Issued first, it clears the running flag and its producer is suspended (step 1). Taken
up again by that producer it waits until the dispatcher has exited (step 2), then closes both destinations
in the free order and halts (steps 3 and 4, log 12). -/
def execShutdown (s : State) : Host.Outcome State Fault Refusal :=
  if s.halted then .refused .halted
  else
    match s.stopping with
    | none => .next { s.suspend with running := false, stopping := some s.caller }
    | some p =>
      if p = s.caller then
        match s.w with
        | .exited =>
          .next { (s.closeBoth (Config.closeHeadFirst s.draws)).complete with
            halted := true, stopping := none, draws := s.draws + 1 }
        | .idle => .next s.suspend
        | .busy _ _ => .next s.suspend
      else .refused .shutdownInProgress

/-- SENDCMD (R176): BUILDPAYLOAD, COMPUTEFRAME, APPENDTAG, SENDPOINT. Only the last touches state. -/
def execSendCmd (mode : Byte) (orderedBytes : Bytes) (ack tag : Byte) (s : State) :
    Host.Outcome State Fault Refusal :=
  match computeFrame ack (buildPayload mode orderedBytes) with
  | none => .refused .payloadTooLong
  | some f => s.send ⟨.sendToPoint, appendTag f tag⟩

/-- CMD.reserved (R101): "reserved and refused". -/
def execCmdReserved (op : Byte) (_operands : Bytes) (_s : State) : Host.Outcome State Fault Refusal :=
  .refused (.reservedCommand op)

end Sys2Proof.Machine
end

