-- ==== Sys2Proof/Machine/Dispatch.lean ====
section
/-! DEFINITION. One arm per constructor of `Instr`. -/

namespace Sys2Proof.Machine

def exec (i : Instr) (s : State) : Host.Outcome State Fault Refusal :=
  match i with
  | .buildPayload mode orderedBytes => Sys2Proof.Machine.execBuildPayload mode orderedBytes s
  | .computeFrame ack datas => Sys2Proof.Machine.execComputeFrame ack datas s
  | .appendTag frame tag => Sys2Proof.Machine.execAppendTag frame tag s
  | .sendHead bytes => Sys2Proof.Machine.execSendHead bytes s
  | .sendBottom bytes => Sys2Proof.Machine.execSendBottom bytes s
  | .sendPoint rbuf => Sys2Proof.Machine.execSendPoint rbuf s
  | .waitPending => Sys2Proof.Machine.execWaitPending s
  | .shutdown => Sys2Proof.Machine.execShutdown s
  | .cmdReserved op operands => Sys2Proof.Machine.execCmdReserved op operands s
  | .sendCmd mode orderedBytes ack tag => Sys2Proof.Machine.execSendCmd mode orderedBytes ack tag s
  | .kindSendToHead data => Sys2Proof.Machine.execKindSendToHead data s
  | .kindSendToBottom data => Sys2Proof.Machine.execKindSendToBottom data s
  | .kindSendToPoint data => Sys2Proof.Machine.execKindSendToPoint data s
  | .kindReserved data => Sys2Proof.Machine.execKindReserved data s
  | .tagHead frame => Sys2Proof.Machine.execTagHead frame s
  | .tagBottom frame => Sys2Proof.Machine.execTagBottom frame s
  | .tagBroadcast frame => Sys2Proof.Machine.execTagBroadcast frame s
  | .tagReserved frame tag => Sys2Proof.Machine.execTagReserved frame tag s
  | .frame msgSize ack1 ack2 mmnn datas ck => Sys2Proof.Machine.execFrame msgSize ack1 ack2 mmnn datas ck s
  | .rbuf frame tag => Sys2Proof.Machine.execRbuf frame tag s
  | .cmdPayload mode orderedBytes => Sys2Proof.Machine.execCmdPayload mode orderedBytes s

end Sys2Proof.Machine
end

