-- ==== Sys2Proof/Machine/Agents.lean ====
section
/-! DEFINITION. What each agent does when it is its turn: a producer presents its next item (R263), the dispatcher
takes its one enabled step (R200, R201, R218, R219), and the schedule then picks who is next (log 1). -/

namespace Sys2Proof.Machine

/-- The item the acting producer presents: the first of its stream. -/
def State.fetchItem (s : State) : Option Item := (s.streams.getD s.caller []).head?

/-- What a producer can present: the eight operations and the pseudo-operation, a closed set (R108). Messages and
tagged buffers are decoded by the dispatcher alone, and frames, routed buffers and payloads are data that no part
of FSRM parses (R103, log 9). -/
def issuable : Item → Bool
  | .command _ => true
  | .pseudo _ _ _ _ => true
  | .message _ _ => false
  | .tagged _ => false
  | .frame _ => false
  | .routed _ => false
  | .payload _ => false

/-- Decode an item and run the instruction. -/
def runItem (it : Item) (s : State) : Host.Outcome State Fault Refusal :=
  match decode it with
  | .ok i => exec i s
  | .error e => .refused (.undecodable e)

/-- A producer's turn. A producer with nothing to issue does nothing. -/
def producerStep (s : State) : Host.Outcome State Fault Refusal :=
  match s.fetchItem with
  | none => .next s
  | some it => if issuable it then runItem it s else .refused .notIssuable

/-- ATTEMPT (R218): one write attempt of the message in flight, then the rest of its route. -/
def State.attemptStep (s : State) (a : Attempt) (rest : List Attempt) : State :=
  { s.writeAttempt a.dest a.bytes (s.attemptDraws a.dest a.bytes) with
    w := phaseOf rest, draws := s.draws + 3 }

/-- EXIT (R219). -/
def State.exitStep (s : State) : State := { s with w := .exited }

/-- The dispatcher's turn. DEQUEUE pops the message and runs its decoded kind (R201); with no step enabled
it is blocked (R265). -/
def dispatcherStep (s : State) : Host.Outcome State Fault Refusal :=
  match s.w with
  | .exited => .next s
  | .busy a rest => .next (s.attemptStep a rest)
  | .idle =>
    match s.q with
    | [] => if s.running then .next s else .next s.exitStep
    | m :: ms =>
      if s.running || s.params.drainOnShutdown then runItem (encodeMessage m) { s with q := ms }
      else .next s.exitStep

/-- The schedule's free choice of who moves next (log 1). -/
def State.reschedule (s : State) : State :=
  { s with
    turn := if (Config.schedule s.ticks).1 then .dispatcher else .producer
    caller := (Config.schedule s.ticks).2
    ticks := s.ticks + 1 }

/-- What the agent whose turn it is does. -/
def agentStep (s : State) : Host.Outcome State Fault Refusal :=
  match s.turn with
  | .producer => producerStep s
  | .dispatcher => dispatcherStep s

/-- A fresh producer arrives, presents one item, and it is its turn (log 14). -/
def State.withIssuedItem (s : State) (it : Item) : State :=
  { s with streams := s.streams ++ [[it]], turn := .producer, caller := s.streams.length }

end Sys2Proof.Machine
end

