-- ==== Sys2Proof/Machine/Step.lean ====
section
/-! DEFINITION. One step of the machine, and how a test places an instruction where the step fetches it. -/

namespace Sys2Proof.Machine

/-- One step: the agent whose turn it is moves, then the schedule picks the next (log 1). -/
def step (s : State) : Host.Outcome State Fault Refusal := onNext State.reschedule (agentStep s)

/-- The state in which a fresh producer presents the table word as its one transaction (logs 8 and 14). -/
def State.withFetchWord (s : State) (nbits w : Nat) : State := s.withIssuedItem (tableItem nbits w)

end Sys2Proof.Machine
end

