-- ==== Sys2Proof/Safety.lean ====
section
/-! DEFINITION. The terms in which the claims speak: the state invariants of R46, the port grammar of R76 and the
failure count of R38 read back from the port trace, the ledger of write attempts behind R69, R70 and R217, and
runs of write attempts and of the dispatcher alone. -/

namespace Sys2Proof.Machine

/-- The shape R46 (i) gives a pending route: one attempt, or head then bottom with the same bytes. -/
def Phase.legal : Phase → Bool
  | .idle => true
  | .busy _ [] => true
  | .busy a [b] => a.dest == .head && b.dest == .bottom && a.bytes == b.bytes
  | .busy _ (_ :: _ :: _) => false
  | .exited => true

/-- The state invariants of R46 (i) and (ii), with what makes them inductive: a SHUTDOWN in progress has
cleared the running flag, and so has whatever let the dispatcher exit (R175, R219). -/
structure State.Inv (s : State) : Prop where
  phase_legal : s.w.legal = true
  halted_stops : s.halted = true →
    s.running = false ∧ s.w = .exited ∧ s.head.link = none ∧ s.bottom.link = none
  stopping_clears : s.stopping.isSome = true → s.running = false
  exited_clears : s.w = .exited → s.running = false

/-- The effect of one event on the connection of `d` under the port grammar of R76: `none` once a request was
made that the grammar does not allow, otherwise the link held. -/
def portEvent (d : Dest) (acc : Option (Option Link)) (ev : PortEvent) : Option (Option Link) :=
  match acc, ev with
  | none, _ => none
  | some held, .opened e r => if e = d then (if held.isSome then none else some r) else some held
  | some held, .closed e => if e = d then (if held.isSome then some none else none) else some held
  | some held, .wrote e _ _ _ => if e = d then (if held.isSome then some held else none) else some held
  | some held, .attempted _ _ _ => some held

/-- The connection of `d` that a trace from reset leads to, or `none` if it breaks the grammar (R76). -/
def portReplay (d : Dest) (trace : List PortEvent) : Option (Option Link) :=
  trace.foldl (portEvent d) (some none)

/-- The effect of one event on the count of failed attempts to `d` since the last success (R38). -/
def countEvent (d : Dest) (acc : Nat) (ev : PortEvent) : Nat :=
  match ev with
  | .opened _ _ => acc
  | .closed _ => acc
  | .wrote _ _ _ _ => acc
  | .attempted e _ .ok => if e = d then 0 else acc
  | .attempted e _ .fail => if e = d then acc + 1 else acc

/-- The failed attempts to `d` since the last successful one, read off a trace (R38). -/
def countReplay (d : Dest) (trace : List PortEvent) : Nat := trace.foldl (countEvent d) 0

/-- Every write of a trace is followed at once by the ATTEMPT event of the same buffer, with the verdict of
R211, and moved no more than the buffer holds (R13, R210, R220). -/
def writesJudged : List PortEvent → Bool
  | [] => true
  | .wrote d bytes err n :: rest =>
    (match rest with
      | .attempted e b v :: _ =>
        decide (e = d) && decide (b = bytes) && decide (n ≤ bytes.length) &&
          decide (v = if failed err n then .fail else .ok)
      | _ => false) && writesJudged rest
  | .opened _ _ :: rest => writesJudged rest
  | .closed _ :: rest => writesJudged rest
  | .attempted _ _ _ :: rest => writesJudged rest

/-- The write attempt an event reports, if it is one (R220). -/
def attemptOf : PortEvent → Option Attempt
  | .opened _ _ => none
  | .closed _ => none
  | .wrote _ _ _ _ => none
  | .attempted d bytes _ => some ⟨d, bytes⟩

/-- The write attempts of a trace, in order. -/
def attemptsOf (trace : List PortEvent) : List Attempt := trace.filterMap attemptOf

/-- The attempts still to make for the message in flight (R36). -/
def Phase.pending : Phase → List Attempt
  | .idle => []
  | .busy a rest => a :: rest
  | .exited => []

/-- The ledger: the attempts made, then those of the message in flight, then the routes of the queued
messages, in queue order (R69, R70). -/
def State.ledger (s : State) : List Attempt :=
  attemptsOf s.trace ++ s.w.pending ++ s.q.flatMap route

/-- How many dispatcher steps the work at hand takes: one per pending attempt, and per queued message one
DEQUEUE and one per attempt of its route. -/
def State.work (s : State) : Nat :=
  s.w.pending.length + (s.q.map (fun m => 1 + (route m).length)).sum

/-- `k` turns of the dispatcher alone. -/
def dispatcherRun : Nat → State → Host.Outcome State Fault Refusal
  | 0, s => .next s
  | k + 1, s =>
    match dispatcherStep s with
    | .next t => dispatcherRun k t
    | .fault r => .fault r
    | .refused r => .refused r

/-- Write attempts to one destination, one after the other. -/
def runAttempts (d : Dest) : List (Bytes × Draws) → State → State
  | [], s => s
  | (bytes, a) :: rest, s => runAttempts d rest (s.writeAttempt d bytes a)

/-- The CLOSE event that closing a destination appends: one when it is Connected, else none (R175). -/
def closeOf (s : State) (d : Dest) : List PortEvent := if s.connected d then [.closed d] else []

/-- The close events of a destination in a trace. -/
def closesOf (d : Dest) (trace : List PortEvent) : Nat :=
  trace.countP (fun ev => decide (ev = .closed d))

/-- Whether an event is an open request of the destination. -/
def isOpenOf (d : Dest) : PortEvent → Bool
  | .opened e _ => decide (e = d)
  | .closed _ => false
  | .wrote _ _ _ _ => false
  | .attempted _ _ _ => false

/-- The open requests of a destination in a trace. -/
def opensOf (d : Dest) (trace : List PortEvent) : Nat := trace.countP (isOpenOf d)

/-- The other destination. -/
def otherDest : Dest → Dest
  | .head => .bottom
  | .bottom => .head

end Sys2Proof.Machine
end

