-- ==== Sys2Proof/Certificates/Slice0/Obligations.lean ====
section
/-! DEFINITION. The statements for the provers. A title in OBLIGATIONS.json names each; a docstring cites the rule of
spec/ it formalises. `streams` and `suspended` of a completed command say that its producer goes on (logs 11 and 14);
`responses` is where a serializer result goes (log 13). -/

open Sys2Proof Sys2Proof.Machine

/-! ### Encoding -/

/-- R91, R97 to R102: for every instruction whose operands its encoding admits, decoding what the encoder
writes gives it back. No bit of an encoding is dropped. -/
def Obligations.DecodeAfterEncode : Prop :=
  ∀ i : Instr, i.encodable = true → decode (encode i) = .ok i

/-- Every item has at most one meaning: what decodes is exactly the encoding of its instruction, and reserved
values do not fall through to a neighbour (R99, R100, R101, R109). -/
def Obligations.EncodeAfterDecode : Prop :=
  ∀ (it : Item) (i : Instr), decode it = .ok i → encode i = it ∧ i.encodable = true

/-- R101's table and R100's remark on it: the command byte, then the operands in the order of R106 (the layout
of operands in a transaction is log 7). -/
def Obligations.CommandBytesFollowTheTable : Prop :=
  (∀ (x : Byte) (bs : Bytes),
    decode (.command (0x00#8 :: x :: bs)) = .ok (.buildPayload x bs) ∧
    decode (.command (0x01#8 :: x :: bs)) = .ok (.computeFrame x bs) ∧
    decode (.command (0x02#8 :: (bs ++ [x]))) = .ok (.appendTag bs x) ∧
    decode (.command (0x03#8 :: bs)) = .ok (.sendHead bs) ∧
    decode (.command (0x04#8 :: bs)) = .ok (.sendBottom bs) ∧
    decode (.command (0x05#8 :: bs)) = .ok (.sendPoint bs) ∧
    decode (.command [0x06#8]) = .ok .waitPending ∧
    decode (.command [0x07#8]) = .ok .shutdown) ∧
  (∀ (op : Byte) (bs : Bytes), 8 ≤ op.toNat → decode (.command (op :: bs)) = .ok (.cmdReserved op bs)) ∧
  (kindCode .sendToHead).toNat = 3 - 3 ∧ (kindCode .sendToBottom).toNat = 4 - 3 ∧
  (kindCode .sendToPoint).toNat = 5 - 3

/-- R98, R99, R100, R108: the dispatcher's two decode stages are whole-value matches. -/
def Obligations.DispatcherDecodesKindThenTag : Prop :=
  (∀ data : Bytes,
    decode (.message 0#2 data) = .ok (.kindSendToHead data) ∧
    decode (.message 1#2 data) = .ok (.kindSendToBottom data) ∧
    decode (.message 2#2 data) = .ok (.kindSendToPoint data) ∧
    decode (.message 3#2 data) = .ok (.kindReserved data)) ∧
  (∀ (frame : Bytes) (tag : Byte),
    decode (.tagged (frame ++ [tag])) = .ok
      (if tag = 0x01#8 then .tagHead frame else if tag = 0x02#8 then .tagBottom frame
        else if tag = 0x03#8 then .tagBroadcast frame else .tagReserved frame tag)) ∧
  decode (.tagged []) = .error .noTagByte

/-- A few words written out from the spec's tables: program P1 lines 1, 4, 5 (95_test_vectors.md), the frame of
test vector V2 row 9, and a routed buffer. -/
def Obligations.WordsOfTheSpecDecode : Prop :=
  decode (.command [0x00, 0x02, 0x01, 0xFF, 0x05]) = .ok (.buildPayload 0x02 [0x01, 0xFF, 0x05]) ∧
  decode (.command [0x05, 0xAA, 0x01]) = .ok (.sendPoint [0xAA, 0x01]) ∧
  decode (.command [0x06]) = .ok .waitPending ∧
  decode (.tagged [0xAA, 0xBB, 0x03]) = .ok (.tagBroadcast [0xAA, 0xBB]) ∧
  decode (.frame [0xA4, 0x03, 0, 0, 0, 0, 0, 0x07, 0x01, 0, 0, 0, 0, 0, 0, 0, 0xFF, 0xA5, 0x01, 0, 0x02, 0x04, 0xAB])
    = .ok (.frame 7 0x01 0x01 2 [0x04] 0xAB) ∧
  decode (.routed [0xAA, 0xBB, 0x02]) = .ok (.rbuf [0xAA, 0xBB] 0x02)

/-- R100, R101: the two rows that stop on every path. "Command bytes `0x08` to `0xFF` are reserved and
`refuse`d", and kind code 11 is "never produced by any command". -/
def Obligations.ReservedCodesAreRefused : Prop :=
  (∀ (op : Byte) (operands : Bytes) (s : State),
    exec (.cmdReserved op operands) s = .refused (.reservedCommand op)) ∧
  (∀ (data : Bytes) (s : State), exec (.kindReserved data) s = .refused .reservedKind) ∧
  (∀ k : MsgKind, kindCode k ≠ 3#2)

/-! ### The frame serializer -/

/-- R131: the answer is the mode and the elements in order, without every `0xFF` lane, which is the element -1
(R102). With `FILTER_COVERS_MODE = true` the mode is filtered too (D2, log 6). That the answer is
appended to `responses` and its producer goes on is the MODEL's choice, logs 11, 13, 14. -/
def Obligations.BuildPayloadAnswersTheKeptBytes : Prop :=
  ∀ (mode : Byte) (orderedBytes : Bytes) (s : State),
    exec (.buildPayload mode orderedBytes) s = .next { s with
      responses := s.responses ++ [⟨s.caller, (mode :: orderedBytes).filter (fun b => b != 0xFF#8)⟩]
      streams := s.streams.modify s.caller List.tail
      suspended := s.suspended.filter (fun p => p != s.caller) }

/-- R131 corner cases (iv), (vi), (vii), inferences the spec marks as its own, and both readings of
`FILTER_COVERS_MODE`: they differ only when `mode = 0xFF`. -/
def Obligations.BuildPayloadLengthAndIdempotence : Prop :=
  ∀ (mode : Byte) (es : Bytes),
    (buildPayload mode es).length = 1 + es.length - (mode :: es).countP (fun b => b == 0xFF#8) ∧
    0xFF#8 ∉ buildPayload mode es ∧
    (∀ (b : Byte) (rest : Bytes), buildPayload mode es = b :: rest → buildPayload b rest = b :: rest) ∧
    (mode ≠ 0xFF#8 → buildPayloadWith false mode es = buildPayloadWith true mode es) ∧
    buildPayloadWith false 0xFF#8 es = 0xFF#8 :: buildPayloadWith true 0xFF#8 es

/-- R91, R95, R132: for at most 65534 payload bytes the answer is the frame, field after field. That the answer is
appended to `responses` and its producer goes on is the MODEL's choice, logs 11, 13, 14. -/
def Obligations.ComputeFrameAnswersTheFrame : Prop :=
  ∀ (ack : Byte) (datas : Bytes) (s : State), datas.length ≤ 65534 →
    exec (.computeFrame ack datas) s = .next { s with
      responses := s.responses ++ [⟨s.caller,
        [0xA4#8, 0x03#8, 0x00#8, 0x00#8] ++ be32 (datas.length + 6) ++ [ack] ++ List.replicate 7 0x00#8 ++
          [0xFF#8, 0xA5#8] ++ [ack] ++ be16 (datas.length + 1) ++ datas ++
          [BitVec.ofNat 8 (0xFF + 0xA5 + ack.toNat + (datas.length + 1) + (datas.map BitVec.toNat).sum)]⟩]
      streams := s.streams.modify s.caller List.tail
      suspended := s.suspended.filter (fun p => p != s.caller) }

/-- R132 and R252: a longer payload is refused, by COMPUTEFRAME and by SENDCMD through it (R176). That SENDCMD
names the length also where the halt refuses it too is the MODEL's choice, log 28. -/
def Obligations.LongPayloadIsRefused : Prop :=
  ∀ (ack : Byte) (s : State),
    (∀ datas : Bytes, 65534 < datas.length → exec (.computeFrame ack datas) s = .refused .payloadTooLong) ∧
    (∀ (mode tag : Byte) (es : Bytes), 65534 < (buildPayload mode es).length →
      exec (.sendCmd mode es ack tag) s = .refused .payloadTooLong)

/-- R61, R62: the multi-byte fields of a frame are big-endian at their offsets. -/
def Obligations.FrameFieldsAreBigEndian : Prop :=
  ∀ (ack : Byte) (datas : Bytes), datas.length ≤ 65534 →
    let f := frameBytes ack datas
    slice f 0 2 = [0xA4#8, 0x03#8] ∧ slice f 2 4 = [0x00#8, 0x00#8] ∧
    slice f 4 8 = be32 (datas.length + 6) ∧ beNat (slice f 4 8) = datas.length + 6 ∧
    slice f 16 18 = [0xFF#8, 0xA5#8] ∧
    slice f 19 21 = be16 (datas.length + 1) ∧ beNat (slice f 19 21) = datas.length + 1

/-- R92: the constant fields are constant, and the same acknowledge byte stands at offsets 8 and 18. -/
def Obligations.FixedFieldsAndBothAckBytes : Prop :=
  ∀ (ack : Byte) (datas : Bytes),
    let f := frameBytes ack datas
    slice f 0 2 = [0xA4#8, 0x03#8] ∧ slice f 2 4 = [0x00#8, 0x00#8] ∧
    slice f 9 16 = List.replicate 7 0x00#8 ∧ slice f 16 18 = [0xFF#8, 0xA5#8] ∧
    f[8]? = some ack ∧ f[18]? = some ack

/-- R95, R96: the frame has `N + 22` bytes and the last one, at offset `21 + N`, is the checksum. -/
def Obligations.ChecksumIsTheLastByte : Prop :=
  ∀ (ack : Byte) (datas : Bytes),
    (frameBytes ack datas).length = datas.length + 22 ∧
    (frameBytes ack datas)[21 + datas.length]? =
      some (BitVec.ofNat 8 (0xFF + 0xA5 + ack.toNat + (datas.length + 1) + (datas.map BitVec.toNat).sum))

/-- R136, R137: the byte-serial reference datapath, an 8-bit accumulator and a 16-bit counter, computes the
checksum of R134 for every admitted payload. -/
def Obligations.DatapathComputesTheChecksum : Prop :=
  ∀ (ack : Byte) (datas : Bytes), datas.length ≤ 65534 → referenceChecksum ack datas = checksum ack datas

/-- R135: `mmnn` enters the checksum as the number `N + 1`, so only its value modulo 256 counts; summing its two
stored bytes instead is off by `(N + 1) div 256`; and the distinguishing vector. -/
def Obligations.MmnnIsSummedAsANumber : Prop :=
  (∀ (ack : Byte) (datas : Bytes),
    checksum ack datas =
      low8 (255 + 165 + ack.toNat + (datas.length + 1) % 256 + sumBytes datas) ∧
    low8 (255 + 165 + ack.toNat + ((datas.length + 1) / 256 + (datas.length + 1) % 256) + sumBytes datas) =
      checksum ack datas + low8 ((datas.length + 1) / 256)) ∧
  checksum 0x01#8 (List.replicate 255 0x00#8) = 0xA5#8

/-- R105, an inference the spec marks as its own: the frame of `ack` and `datas` is the one byte sequence that
satisfies the well-formedness predicate for `ack` and carries `datas`. -/
def Obligations.ComputeFrameIsTheUniqueWellFormedFrame : Prop :=
  ∀ (ack : Byte) (datas f : Bytes), datas.length ≤ 65534 →
    ((frameWellFormed ack f = true ∧ slice f 21 (21 + (f.length - 22)) = datas) ↔ f = frameBytes ack datas)

/-- R141 (v), an inference the spec marks as its own: COMPUTEFRAME is injective. -/
def Obligations.ComputeFrameIsInjective : Prop :=
  ∀ (ack ack' : Byte) (datas datas' : Bytes),
    frameBytes ack datas = frameBytes ack' datas' → ack = ack' ∧ datas = datas'

/-- R133: a pure append, whatever the tag, that stripping the last byte undoes. That the answer is appended to
`responses` and its producer goes on is the MODEL's choice, logs 11, 13, 14. -/
def Obligations.AppendTagAppendsOneByte : Prop :=
  ∀ (frame : Bytes) (tag : Byte) (s : State),
    exec (.appendTag frame tag) s = .next { s with
      responses := s.responses ++ [⟨s.caller, frame ++ [tag]⟩]
      streams := s.streams.modify s.caller List.tail
      suspended := s.suspended.filter (fun p => p != s.caller) } ∧
    (appendTag frame tag).length = frame.length + 1 ∧
    splitLast (appendTag frame tag) = some (frame, tag)

/-- The three layout rows have the effect of the rule the table cites for them: the MODEL's choice, log 9. No step
runs them (`StepRefusesWhatNoUserCanIssue`). The row FRAME answers the frame when its fields agree (R105) and is
refused when they do not. -/
def Obligations.LayoutRowsAnswerTheirBytes : Prop :=
  (∀ (ack : Byte) (datas : Bytes) (s : State), datas.length ≤ 65534 →
    exec (.frame (BitVec.ofNat 32 (datas.length + 6)) ack ack (BitVec.ofNat 16 (datas.length + 1)) datas
        (checksum ack datas)) s = exec (.computeFrame ack datas) s ∧
    ∃ t, exec (.frame (BitVec.ofNat 32 (datas.length + 6)) ack ack (BitVec.ofNat 16 (datas.length + 1)) datas
        (checksum ack datas)) s = .next t) ∧
  (∀ (msgSize : BitVec 32) (a1 a2 ck : Byte) (mmnn : BitVec 16) (datas : Bytes) (s : State),
    frameFieldsOk msgSize a1 a2 mmnn datas ck = false →
    exec (.frame msgSize a1 a2 mmnn datas ck) s = .refused .illFormedFrame) ∧
  (∀ (frame : Bytes) (tag : Byte) (s : State),
    exec (.rbuf frame tag) s = exec (.appendTag frame tag) s ∧ ∃ t, exec (.rbuf frame tag) s = .next t) ∧
  (∀ (mode : Byte) (es : Bytes) (s : State),
    exec (.cmdPayload mode es) s = exec (.buildPayload mode es) s ∧ ∃ t, exec (.cmdPayload mode es) s = .next t)

/-! ### The commands of the routing mux -/

/-- R171, R172, R173: each send command pushes one message at the tail of the queue and completes; nothing else
of the block changes. -/
def Obligations.SendCommandsPushOneMessage : Prop :=
  ∀ (bytes : Bytes) (s : State), s.halted = false → s.hasRoom = true →
    exec (.sendHead bytes) s = .next { s with
      q := s.q ++ [⟨.sendToHead, bytes⟩]
      streams := s.streams.modify s.caller List.tail
      suspended := s.suspended.filter (fun p => p != s.caller) } ∧
    exec (.sendBottom bytes) s = .next { s with
      q := s.q ++ [⟨.sendToBottom, bytes⟩]
      streams := s.streams.modify s.caller List.tail
      suspended := s.suspended.filter (fun p => p != s.caller) } ∧
    exec (.sendPoint bytes) s = .next { s with
      q := s.q ++ [⟨.sendToPoint, bytes⟩]
      streams := s.streams.modify s.caller List.tail
      suspended := s.suspended.filter (fun p => p != s.caller) }

/-- R34: there is always room in the unbounded reference queue; in a queue of finite depth that is full the
producer waits, and nothing is dropped or overwritten. That the wait is a turn that lists the producer as suspended is
the MODEL's choice, log 11. -/
def Obligations.FullQueueMakesTheProducerWait : Prop :=
  (∀ s : State, s.params.queueDepth = none → s.hasRoom = true) ∧
  (∀ (depth : Nat) (bytes : Bytes) (s : State), s.params.queueDepth = some depth → depth ≤ s.q.length →
    s.halted = false →
    ∀ i ∈ [Instr.sendHead bytes, .sendBottom bytes, .sendPoint bytes], exec i s = .next { s with
      suspended := if s.caller ∈ s.suspended then s.suspended else s.caller :: s.suspended })

/-- R178: once SHUTDOWN has completed every mux command that is issued is refused, and the serializer's
operations go on. A send or a WAITPENDING that was issued before the halt and is still waiting is not refused: the
send waits for ever, and WAITPENDING completes on the empty queue and waits otherwise; that is the MODEL's choice,
log 11. -/
def Obligations.HaltedBlockRefusesMuxCommands : Prop :=
  ∀ s : State, s.halted = true →
    exec .shutdown s = .refused .halted ∧
    (s.caller ∉ s.suspended →
      (∀ bytes : Bytes, ∀ i ∈ [Instr.sendHead bytes, .sendBottom bytes, .sendPoint bytes, .waitPending],
        exec i s = .refused .halted) ∧
      (∀ (mode ack tag : Byte) (es : Bytes), (buildPayload mode es).length ≤ 65534 →
        exec (.sendCmd mode es ack tag) s = .refused .halted)) ∧
    (s.caller ∈ s.suspended →
      (∀ bytes : Bytes, ∀ i ∈ [Instr.sendHead bytes, .sendBottom bytes, .sendPoint bytes], exec i s = .next s) ∧
      (∀ (mode ack tag : Byte) (es : Bytes), (buildPayload mode es).length ≤ 65534 →
        exec (.sendCmd mode es ack tag) s = .next s) ∧
      (s.q = [] → exec .waitPending s = .next { s with
        streams := s.streams.modify s.caller List.tail
        suspended := s.suspended.filter (fun p => p != s.caller) }) ∧
      (s.q ≠ [] → exec .waitPending s = .next s)) ∧
    (∀ (x : Byte) (bs : Bytes), bs.length ≤ 65534 → ∃ t u v,
      exec (.buildPayload x bs) s = .next t ∧ exec (.computeFrame x bs) s = .next u ∧
      exec (.appendTag bs x) s = .next v)

/-- R174: WAITPENDING completes when the queue is empty, whatever the dispatcher is doing, and writes nothing;
otherwise its producer is blocked (how a block is recorded is log 11). -/
def Obligations.WaitPendingCompletesOnTheEmptyQueue : Prop :=
  ∀ s : State, s.halted = false →
    (s.q = [] → exec .waitPending s = .next { s with
      streams := s.streams.modify s.caller List.tail
      suspended := s.suspended.filter (fun p => p != s.caller) }) ∧
    (s.q ≠ [] → exec .waitPending s = .next { s with
      suspended := if s.caller ∈ s.suspended then s.suspended else s.caller :: s.suspended })

/-- R175 step 1: SHUTDOWN clears the running flag, in any phase of the dispatcher and whatever is queued. That
its producer is then recorded as waiting in it is the MODEL's, logs 11 and 12. -/
def Obligations.ShutdownClearsTheRunningFlag : Prop :=
  ∀ s : State, s.halted = false → s.stopping = none →
    exec .shutdown s = .next { s with
      running := false
      stopping := some s.caller
      suspended := if s.caller ∈ s.suspended then s.suspended else s.caller :: s.suspended }

/-- R175 step 2 and corner case (iii): until the dispatcher has exited SHUTDOWN waits, and another producer's
SHUTDOWN is refused meanwhile. R14 gives a blocked operation no step: that the waiting SHUTDOWN's turn lists its
producer as suspended and changes nothing else is the MODEL's choice, logs 11 and 12. -/
def Obligations.ShutdownWaitsForTheDispatcher : Prop :=
  ∀ s : State, s.halted = false →
    (s.stopping = some s.caller → s.w ≠ .exited → exec .shutdown s = .next { s with
      suspended := if s.caller ∈ s.suspended then s.suspended else s.caller :: s.suspended }) ∧
    (∀ p, s.stopping = some p → p ≠ s.caller → exec .shutdown s = .refused .shutdownInProgress)

/-- R175 steps 3 and 4: once the dispatcher has exited both destinations are closed, with one CLOSE event for each
that was Connected, in one order or the other (D29), the counts are kept, and the block is halted.
That this is one step, after which the producer goes on, is the MODEL's choice, logs 3, 12 and 14. -/
def Obligations.ShutdownClosesBothAndHalts : Prop :=
  ∀ s : State, s.halted = false → s.stopping = some s.caller → s.w = .exited →
    ∃ evs, (evs = closeOf s .head ++ closeOf s .bottom ∨ evs = closeOf s .bottom ++ closeOf s .head) ∧
      exec .shutdown s = .next { s with
        head := { s.head with link := none }
        bottom := { s.bottom with link := none }
        trace := s.trace ++ evs
        halted := true
        stopping := none
        draws := s.draws + 1
        streams := s.streams.modify s.caller List.tail
        suspended := s.suspended.filter (fun p => p != s.caller) }

/-- R176: SENDCMD is BUILDPAYLOAD, COMPUTEFRAME, APPENDTAG and SENDPOINT, in any state, and it completes where its
SENDPOINT does. That it is one step is the MODEL's choice, log 10. -/
def Obligations.SendCmdIsItsExpansion : Prop :=
  ∀ (mode ack tag : Byte) (es : Bytes) (s : State), (buildPayload mode es).length ≤ 65534 →
    exec (.sendCmd mode es ack tag) s =
      exec (.sendPoint (frameBytes ack (buildPayload mode es) ++ [tag])) s ∧
    (s.halted = false → s.hasRoom = true → exec (.sendCmd mode es ack tag) s = .next { s with
      q := s.q ++ [⟨.sendToPoint, frameBytes ack (buildPayload mode es) ++ [tag]⟩]
      streams := s.streams.modify s.caller List.tail
      suspended := s.suspended.filter (fun p => p != s.caller) })

/-! ### Routing -/

/-- R201, R202, R203: the whole data is the buffer of the one write attempt, to the named destination. That a kind
row is DEQUEUE after QPop has taken the message off the queue is the MODEL's reading, log 19. -/
def Obligations.NamedKindsRouteTheirWholeData : Prop :=
  ∀ (data : Bytes) (s : State), s.w = .idle →
    route ⟨.sendToHead, data⟩ = [⟨.head, data⟩] ∧ route ⟨.sendToBottom, data⟩ = [⟨.bottom, data⟩] ∧
    exec (.kindSendToHead data) s = .next { s with w := .busy ⟨.head, data⟩ [] } ∧
    exec (.kindSendToBottom data) s = .next { s with w := .busy ⟨.bottom, data⟩ [] }

/-- R204 to R209: a SendToPoint message loses its last byte, which alone decides the route; with no byte nothing
is routed. Reserved tags and the empty buffer are the spec's decisions (log 18); that the row is DEQUEUE after QPop
is the MODEL's reading, log 19. -/
def Obligations.PointMessageIsRoutedByItsLastByte : Prop :=
  (∀ (frame : Bytes) (tag : Byte) (s : State), s.w = .idle →
    exec (.kindSendToPoint (frame ++ [tag])) s = .next { s with
      w := if tag = 0x01#8 then .busy ⟨.head, frame⟩ []
        else if tag = 0x02#8 then .busy ⟨.bottom, frame⟩ []
        else if tag = 0x03#8 then .busy ⟨.head, frame⟩ [⟨.bottom, frame⟩]
        else .idle }) ∧
  (∀ s : State, exec (.kindSendToPoint []) s = .next s) ∧
  (∀ (frame : Bytes) (tag : Byte) (s : State),
    exec (.kindSendToPoint (frame ++ [tag])) s = exec (decodeTag frame tag) s)

/-- R205, R206, R207, R208: what each tag value routes. That a reserved tag routes nowhere is the spec's decision
D8 (log 18); that a tag row is DEQUEUE (R201) after QPop is the MODEL's reading, log 19. -/
def Obligations.TagValuesChooseTheDestinations : Prop :=
  ∀ (frame : Bytes) (s : State), s.w = .idle →
    exec (.tagHead frame) s = .next { s with w := .busy ⟨.head, frame⟩ [] } ∧
    exec (.tagBottom frame) s = .next { s with w := .busy ⟨.bottom, frame⟩ [] } ∧
    exec (.tagBroadcast frame) s = .next { s with w := .busy ⟨.head, frame⟩ [⟨.bottom, frame⟩] } ∧
    (∀ tag : Byte, exec (.tagReserved frame tag) s = .next s)

/-- DEQUEUE is enabled only in the phase Idle (R201): in any other the decode stages change nothing. That a step
that is not enabled is no change is the MODEL's choice, logs 11 and 19. -/
def Obligations.NoRouteIsTakenUpOutsideIdle : Prop :=
  ∀ (bs : Bytes) (tag : Byte) (s : State), s.w ≠ .idle →
    ∀ i ∈ [Instr.kindSendToHead bs, .kindSendToBottom bs, .kindSendToPoint bs, .tagHead bs, .tagBottom bs,
      .tagBroadcast bs, .tagReserved bs tag], exec i s = .next s

/-- R207: the dispatcher's next two steps after a broadcast is routed make both attempts, head then bottom, with
the same bytes, whatever the environment answers and whatever happens to the first. That the row is DEQUEUE after
QPop is the MODEL's reading, log 19. -/
def Obligations.BroadcastAttemptsHeadThenBottom : Prop :=
  ∀ (frame : Bytes) (s : State), s.w = .idle →
    ∃ t u v, exec (.tagBroadcast frame) s = .next t ∧ dispatcherStep t = .next u ∧ dispatcherStep u = .next v ∧
      attemptsOf v.trace = attemptsOf s.trace ++ [⟨.head, frame⟩, ⟨.bottom, frame⟩] ∧
      v.w = .idle ∧ v.q = s.q

/-! ### The dispatcher -/

/-- R201: DEQUEUE pops exactly one message, the oldest, and holds its route. -/
def Obligations.DequeueTakesTheOldestMessage : Prop :=
  ∀ (m : Message) (ms : List Message) (s : State), s.w = .idle → s.q = m :: ms →
    (s.running = true ∨ s.params.drainOnShutdown = true) →
    dispatcherStep s = .next { s with
      q := ms
      w := match route m with
        | [] => .idle
        | a :: rest => .busy a rest }

/-- R218: a message that has been popped is always finished, whatever the running flag: one write attempt, then
the rest of the route. The answers are the environment's free ones (log 2); an open asks for the vendor id and the
product id of its destination (R215). -/
def Obligations.AttemptMakesTheNextPendingWrite : Prop :=
  ∀ (a : Attempt) (rest : List Attempt) (s : State), s.w = .busy a rest →
    dispatcherStep s = .next { s.writeAttempt a.dest a.bytes (s.attemptDraws a.dest a.bytes) with
      w := match rest with
        | [] => .idle
        | b :: more => .busy b more
      draws := s.draws + 3 } ∧
    (s.attemptDraws a.dest a.bytes).lazy =
      Config.openDraw s.draws 0x0483#16 (if a.dest = .head then 0x5741#16 else 0x5740#16) ∧
    (s.attemptDraws a.dest a.bytes).reopen =
      Config.openDraw (s.draws + 2) 0x0483#16 (if a.dest = .head then 0x5741#16 else 0x5740#16)

/-- R219, R265: EXIT when stopped with an empty queue or without draining; blocked when idle with an empty queue
and running; no step ever after EXIT. That a turn without an enabled step is a step without a change is the MODEL's
choice, logs 1 and 11. -/
def Obligations.DispatcherExitsOrBlocks : Prop :=
  ∀ s : State,
    (s.w = .idle → s.running = false → (s.q = [] ∨ s.params.drainOnShutdown = false) →
      dispatcherStep s = .next { s with w := .exited }) ∧
    (s.w = .idle → s.q = [] → s.running = true → dispatcherStep s = .next s) ∧
    (s.w = .exited → dispatcherStep s = .next s)

/-! ### The write attempt, the failure path and the connection -/

/-- R210, R211, R214: on a Connected destination a write that reports no error and moves at least one byte is a
success: the trace gains WRITE and ATTEMPT ok, the count becomes 0 and nothing else changes. A partial transfer
is one of these. -/
def Obligations.SuccessfulWriteClearsTheCount : Prop :=
  ∀ (d : Dest) (bytes : Bytes) (a : Draws) (s : State), s.connected d = true →
    a.err = 0 → 0 < a.moved → bytes ≠ [] →
    s.writeAttempt d bytes a = ({ s with trace := s.trace ++
      [.wrote d bytes 0 (min a.moved bytes.length), .attempted d bytes .ok] } : State).setEp d
        { s.ep d with failCount := 0 }

/-- R211, R212: on a Connected destination a write with an error code or with no byte moved is a failure, counted
once; below a multiple of 10 nothing else happens. -/
def Obligations.FailedWriteCountsOnce : Prop :=
  ∀ (d : Dest) (bytes : Bytes) (a : Draws) (s : State), s.connected d = true →
    (a.err ≠ 0 ∨ min a.moved bytes.length = 0) → ((s.ep d).failCount + 1) % 10 ≠ 0 →
    s.writeAttempt d bytes a = ({ s with trace := s.trace ++
      [.wrote d bytes a.err (min a.moved bytes.length), .attempted d bytes .fail] } : State).setEp d
        { s.ep d with failCount := (s.ep d).failCount + 1 }

/-- R212, R213: a failure that brings the count to a multiple of 10 closes and reopens the device inside the same
attempt; the count stays at its multiple of 10 and the buffer is not written again. -/
def Obligations.TenthFailureReconnects : Prop :=
  ∀ (d : Dest) (bytes : Bytes) (a : Draws) (s : State), s.connected d = true →
    (a.err ≠ 0 ∨ min a.moved bytes.length = 0) → ((s.ep d).failCount + 1) % 10 = 0 →
    s.writeAttempt d bytes a = ({ s with trace := s.trace ++
      [.wrote d bytes a.err (min a.moved bytes.length), .attempted d bytes .fail, .closed d,
        .opened d a.reopen] } : State).setEp d
        { link := a.reopen, failCount := (s.ep d).failCount + 1 }

/-- R210, R213: an attempt on a Disconnected destination whose open fails makes no write and counts as a failure;
on a multiple of 10 the cycle has nothing to close and opens once more. -/
def Obligations.AbsentDeviceFailsWithoutAWrite : Prop :=
  ∀ (d : Dest) (bytes : Bytes) (a : Draws) (s : State), s.connected d = false → a.lazy = none →
    s.writeAttempt d bytes a =
      if ((s.ep d).failCount + 1) % 10 = 0 then
        ({ s with trace := s.trace ++ [.opened d none, .attempted d bytes .fail, .opened d a.reopen] }
          : State).setEp d { link := a.reopen, failCount := (s.ep d).failCount + 1 }
      else
        ({ s with trace := s.trace ++ [.opened d none, .attempted d bytes .fail] } : State).setEp d
          { link := none, failCount := (s.ep d).failCount + 1 }

/-- R210, R215: an attempt on a Disconnected destination whose open succeeds goes on as an attempt on the now
Connected one, with the link that was handed over. -/
def Obligations.LazyOpenThenAttempt : Prop :=
  ∀ (d : Dest) (bytes : Bytes) (a : Draws) (l : Link) (s : State), s.connected d = false → a.lazy = some l →
    (s.openDevice d (some l)).connected d = true ∧
    s.writeAttempt d bytes a = (s.openDevice d (some l)).writeAttempt d bytes a

/-- R210 corner case (i), R295, inferences the spec marks as its own: an attempt with an empty buffer fails and
adds one to the count, whatever the environment answers. -/
def Obligations.ZeroLengthAttemptAlwaysFails : Prop :=
  ∀ (d : Dest) (a : Draws) (s : State),
    ((s.writeAttempt d [] a).ep d).failCount = (s.ep d).failCount + 1 ∧
    PortEvent.attempted d [] .fail ∈ (s.writeAttempt d [] a).trace.drop s.trace.length ∧
    PortEvent.attempted d [] .ok ∉ (s.writeAttempt d [] a).trace.drop s.trace.length

/-- R215, R216: what an open and a close do to the record, and that neither touches the count. -/
def Obligations.OpenAndCloseKeepTheCount : Prop :=
  ∀ (d : Dest) (s : State),
    (s.connected d = false →
      s.openDevice d none = { s with trace := s.trace ++ [.opened d none] } ∧
      ∀ l : Link, s.openDevice d (some l) =
        ({ s with trace := s.trace ++ [.opened d (some l)] } : State).setEp d { s.ep d with link := some l }) ∧
    (s.connected d = true →
      s.closeDevice d =
        ({ s with trace := s.trace ++ [.closed d] } : State).setEp d { s.ep d with link := none })

/-- R212, R213, R214 and the testable property S7: from a Connected destination whose count is a multiple of 10,
ten failing writes in a row make exactly one close and one open request, whatever the buffers and the answers;
and a success on attempt 11 brings the count to 0. -/
def Obligations.TenFailuresMakeOneReconnect : Prop :=
  ∀ (d : Dest) (xs : List (Bytes × Draws)) (s : State), s.connected d = true → (s.ep d).failCount % 10 = 0 →
    xs.length = 10 → (∀ x ∈ xs, x.2.err ≠ 0 ∨ min x.2.moved x.1.length = 0) →
    ((runAttempts d xs s).ep d).failCount = (s.ep d).failCount + 10 ∧
    closesOf d (runAttempts d xs s).trace = closesOf d s.trace + 1 ∧
    opensOf d (runAttempts d xs s).trace = opensOf d s.trace + 1 ∧
    (∀ (bytes : Bytes) (a : Draws), (runAttempts d xs s).connected d = true → a.err = 0 → 0 < a.moved → bytes ≠ [] →
      (((runAttempts d xs s).writeAttempt d bytes a).ep d).failCount = 0)

/-! ### The machine -/

/-- A producer's turn runs the operation its item decodes to, in any state, and then only the schedule moves on
(log 1); a command word placed by `withFetchWord` is that item, and a producer with nothing to issue changes nothing
(log 14). What a producer cannot issue is `StepRefusesWhatNoUserCanIssue`. -/
def Obligations.StepRunsTheIssuedInstruction : Prop :=
  (∀ (s : State) (it : Item) (i : Instr), s.turn = .producer → (s.streams.getD s.caller []).head? = some it →
    (i.format = .cmd ∨ i.format = .pseudo) → decode it = .ok i →
    step s = onNext (fun u => { u with
      turn := if (Config.schedule u.ticks).1 then .dispatcher else .producer
      caller := (Config.schedule u.ticks).2
      ticks := u.ticks + 1 }) (exec i s)) ∧
  (∀ (s : State) (nbits w : Nat) (i : Instr), nbits ≠ 168 → decodeTableWord nbits w = some i →
    step (s.withFetchWord nbits w) = onNext (fun u => { u with
      turn := if (Config.schedule u.ticks).1 then .dispatcher else .producer
      caller := (Config.schedule u.ticks).2
      ticks := u.ticks + 1 }) (exec i (s.withFetchWord nbits w))) ∧
  (∀ s : State, s.turn = .producer → (s.streams.getD s.caller []).head? = none →
    step s = .next { s with
      turn := if (Config.schedule s.ticks).1 then .dispatcher else .producer
      caller := (Config.schedule s.ticks).2
      ticks := s.ticks + 1 })

/-- R200: the dispatcher's turn is its one enabled step, DEQUEUE, ATTEMPT, EXIT or none, in every state, and then
only the schedule moves on (log 1). DEQUEUE, when enabled, pops the oldest message and runs the instruction its kind
decodes to (R201, R108). -/
def Obligations.StepRunsTheDequeuedMessage : Prop :=
  (∀ s : State, s.turn = .dispatcher →
    step s = onNext (fun u => { u with
      turn := if (Config.schedule u.ticks).1 then .dispatcher else .producer
      caller := (Config.schedule u.ticks).2
      ticks := u.ticks + 1 }) (dispatcherStep s)) ∧
  (∀ (s : State) (m : Message) (ms : List Message) (i : Instr), s.turn = .dispatcher → s.w = .idle →
    s.q = m :: ms → (s.running = true ∨ s.params.drainOnShutdown = true) →
    decode (.message (kindCode m.kind) m.data) = .ok i →
    step s = onNext (fun u => { u with
      turn := if (Config.schedule u.ticks).1 then .dispatcher else .producer
      caller := (Config.schedule u.ticks).2
      ticks := u.ticks + 1 }) (exec i { s with q := ms }))

/-- R281 and the table of R45: the values reset leaves in the spec's own state. -/
def Obligations.ResetLeavesTheSpecsValues : Prop :=
  State.reset.q = [] ∧ State.reset.running = true ∧ State.reset.w = .idle ∧
  (∀ d, (State.reset.ep d).link = none ∧ State.reset.connected d = false ∧ (State.reset.ep d).failCount = 0) ∧
  State.reset.halted = false ∧ State.reset.trace = []

/-- The invariants below hold of the reset state (R46, R76, R38, R220). -/
def Obligations.ResetMeetsTheInvariants : Prop :=
  State.reset.Inv ∧ (∀ d, portReplay d State.reset.trace = some (State.reset.ep d).link) ∧
  (∀ d, countReplay d State.reset.trace = (State.reset.ep d).failCount) ∧
  writesJudged State.reset.trace = true

/-- R46 (i) and (ii): every step, from every state that meets them, keeps the shape of the pending route, and a
halted block has cleared its running flag, ended its dispatcher and released both handles. -/
def Obligations.StepKeepsTheStateInvariants : Prop :=
  ∀ s t : State, s.Inv → step s = .next t → t.Inv

/-- R46 (iii) and (iv): the running flag never comes back, the trace only grows; and neither does a halted block
come back nor do the parameters of R7 change. -/
def Obligations.RunningNeverReturnsAndTraceGrows : Prop :=
  ∀ s t : State, step s = .next t →
    (s.running = false → t.running = false) ∧ s.trace <+: t.trace ∧ (s.halted = true → t.halted = true) ∧
    t.params = s.params

/-- R46 (v), R68: in one step the queue stays, or a producer's turn appends one message at its tail, or the idle
dispatcher's turn removes the one at its head. -/
def Obligations.QueueMovesByOnePushOrOnePop : Prop :=
  ∀ s t : State, step s = .next t →
    t.q = s.q ∨ (s.turn = .producer ∧ s.halted = false ∧ ∃ m, t.q = s.q ++ [m]) ∨
      (s.turn = .dispatcher ∧ s.w = .idle ∧ ∃ m, s.q = m :: t.q)

/-- R76, an inference the spec marks as its own: at each port the requests of the trace keep to the grammar, and
lead to exactly the link the state holds. Every step keeps this. -/
def Obligations.StepKeepsThePortGrammar : Prop :=
  ∀ s t : State, (∀ d, portReplay d s.trace = some (s.ep d).link) → step s = .next t →
    ∀ d, portReplay d t.trace = some (t.ep d).link

/-- R38: the count of a destination is the number of its failed attempts since its last successful one. Every
step keeps this. -/
def Obligations.StepKeepsTheFailureCount : Prop :=
  ∀ s t : State, (∀ d, countReplay d s.trace = (s.ep d).failCount) → step s = .next t →
    ∀ d, countReplay d t.trace = (t.ep d).failCount

/-- R210, R211, R220: every WRITE event is followed at once by the ATTEMPT event of the same buffer with the
verdict of R211, and never moves more than its buffer holds (R13). Every step keeps this. -/
def Obligations.StepKeepsWritesJudged : Prop :=
  ∀ s t : State, writesJudged s.trace = true → step s = .next t → writesJudged t.trace = true

/-- R69, R70, R217: attempts made, attempts pending and the routes of queued messages form one list that a step
can only extend at its end, and only a producer's push does: no attempt is reordered, dropped before it is made,
doubled or made again after a failure. -/
def Obligations.LedgerOnlyGrowsAtItsEnd : Prop :=
  ∀ s t : State, step s = .next t →
    ∃ ms : List Message, t.ledger = s.ledger ++ ms.flatMap route ∧ ms.length ≤ 1 ∧
      (ms ≠ [] → s.turn = .producer ∧ t.q = s.q ++ ms)

/-- R73, R174 corner case (i): while the block runs, the dispatcher alone empties the queue in as many steps as
there are messages and attempts, whatever the environment answers, and the attempts it has then made are the
ledger, in order. It rests on the premise that every port request returns (D19, log 25), which the model builds into
an attempt. -/
def Obligations.DispatcherDrainsTheQueue : Prop :=
  ∀ s : State, s.running = true → s.w ≠ .exited →
    ∃ t, dispatcherRun s.work s = .next t ∧ t.q = [] ∧ t.w = .idle ∧ attemptsOf t.trace = s.ledger

/-- R43, R260, R290: a producer's turn changes neither the phase, nor a destination's record, nor the trace,
except by completing SHUTDOWN after the dispatcher has exited; the dispatcher's turn changes neither the flags
nor anything of the producers, and touches only the record of the destination it writes to. -/
def Obligations.AgentsTouchOnlyWhatTheyOwn : Prop :=
  ∀ s t : State, step s = .next t →
    (s.turn = .producer → t.w = s.w ∧
      (((∀ d, t.ep d = s.ep d) ∧ t.trace = s.trace) ∨
        (s.stopping = some s.caller ∧ s.w = .exited ∧ s.halted = false ∧ t.halted = true))) ∧
    (s.turn = .dispatcher → t.running = s.running ∧ t.halted = s.halted ∧ t.stopping = s.stopping ∧
      t.suspended = s.suspended ∧ t.streams = s.streams ∧ t.responses = s.responses ∧
      ((∃ a rest, s.w = .busy a rest ∧ t.ep (otherDest a.dest) = s.ep (otherDest a.dest)) ∨
        ((∀ d, t.ep d = s.ep d) ∧ t.trace = s.trace)))

/-- R283: a halted block stays as it is: no step changes its queue, phase, records, flags or trace. (The premise
is the invariant of `StepKeepsTheStateInvariants`.) -/
def Obligations.ShutdownIsTerminal : Prop :=
  ∀ s t : State, s.Inv → s.halted = true → step s = .next t →
    t.halted = true ∧ t.q = s.q ∧ t.w = s.w ∧ t.trace = s.trace ∧ t.running = s.running ∧
    (∀ d, t.ep d = s.ep d)

/-- R292, U8: once the dispatcher has exited with messages left, the queue never empties again, so a WAITPENDING
stays blocked. -/
def Obligations.ExitedDispatcherLeavesTheQueue : Prop :=
  ∀ s t : State, s.w = .exited → s.q ≠ [] → step s = .next t →
    t.w = .exited ∧ s.q <+: t.q

/-- R43: the four status observations read the state they name. -/
def Obligations.StatusObservationsReadTheState : Prop :=
  ∀ s : State, (s.queueEmpty = true ↔ s.q = []) ∧ s.statusRunning = s.running ∧
    ∀ d, (s.statusConnected d = true ↔ (s.ep d).link ≠ none) ∧ s.statusFailCount d = (s.ep d).failCount

/-- R103, R108: a user issues the eight operations and the pseudo-operation and nothing else. A producer that
presents an item of any other format, the word of a frame (168 bits) placed by `withFetchWord` among them, is
refused, and so is a command transaction that decodes to no operation (its layout is log 7). That a producer can
present such an item at all, and that the refusal ends the run, is the MODEL's choice, logs 9, 14 and 21. -/
def Obligations.StepRefusesWhatNoUserCanIssue : Prop :=
  (∀ (s : State) (it : Item), s.turn = .producer → (s.streams.getD s.caller []).head? = some it →
    (it.format ≠ .cmd → it.format ≠ .pseudo → step s = .refused .notIssuable) ∧
    (∀ e : DecodeError, it.format = .cmd → decode it = .error e → step s = .refused (.undecodable e))) ∧
  (∀ (s : State) (w : Nat), step (s.withFetchWord 168 w) = .refused .notIssuable)
end

