-- ==== Sys2Proof/Laws/State.lean ====
section
/-! SUPPORT. One lemma per field per update of the state, true by unfolding the update once, so that no later proof
unfolds a record update. -/

namespace Sys2Proof.Machine

/-! ### record -/

@[simp] theorem State.record_q (s : State) (ev : PortEvent) : (s.record ev).q = s.q := rfl
@[simp] theorem State.record_running (s : State) (ev : PortEvent) : (s.record ev).running = s.running := rfl
@[simp] theorem State.record_w (s : State) (ev : PortEvent) : (s.record ev).w = s.w := rfl
@[simp] theorem State.record_head (s : State) (ev : PortEvent) : (s.record ev).head = s.head := rfl
@[simp] theorem State.record_bottom (s : State) (ev : PortEvent) : (s.record ev).bottom = s.bottom := rfl
@[simp] theorem State.record_halted (s : State) (ev : PortEvent) : (s.record ev).halted = s.halted := rfl
@[simp] theorem State.record_trace (s : State) (ev : PortEvent) : (s.record ev).trace = s.trace ++ [ev] := rfl
@[simp] theorem State.record_stopping (s : State) (ev : PortEvent) : (s.record ev).stopping = s.stopping := rfl
@[simp] theorem State.record_suspended (s : State) (ev : PortEvent) : (s.record ev).suspended = s.suspended := rfl
@[simp] theorem State.record_params (s : State) (ev : PortEvent) : (s.record ev).params = s.params := rfl
@[simp] theorem State.record_streams (s : State) (ev : PortEvent) : (s.record ev).streams = s.streams := rfl
@[simp] theorem State.record_responses (s : State) (ev : PortEvent) : (s.record ev).responses = s.responses := rfl
@[simp] theorem State.record_turn (s : State) (ev : PortEvent) : (s.record ev).turn = s.turn := rfl
@[simp] theorem State.record_caller (s : State) (ev : PortEvent) : (s.record ev).caller = s.caller := rfl
@[simp] theorem State.record_ticks (s : State) (ev : PortEvent) : (s.record ev).ticks = s.ticks := rfl
@[simp] theorem State.record_draws (s : State) (ev : PortEvent) : (s.record ev).draws = s.draws := rfl
@[simp] theorem State.record_ep (s : State) (ev : PortEvent) (d : Dest) : (s.record ev).ep d = s.ep d := by cases d <;> rfl

/-! ### push -/

@[simp] theorem State.push_q (s : State) (m : Message) : (s.push m).q = s.q ++ [m] := rfl
@[simp] theorem State.push_running (s : State) (m : Message) : (s.push m).running = s.running := rfl
@[simp] theorem State.push_w (s : State) (m : Message) : (s.push m).w = s.w := rfl
@[simp] theorem State.push_head (s : State) (m : Message) : (s.push m).head = s.head := rfl
@[simp] theorem State.push_bottom (s : State) (m : Message) : (s.push m).bottom = s.bottom := rfl
@[simp] theorem State.push_halted (s : State) (m : Message) : (s.push m).halted = s.halted := rfl
@[simp] theorem State.push_trace (s : State) (m : Message) : (s.push m).trace = s.trace := rfl
@[simp] theorem State.push_stopping (s : State) (m : Message) : (s.push m).stopping = s.stopping := rfl
@[simp] theorem State.push_suspended (s : State) (m : Message) : (s.push m).suspended = s.suspended := rfl
@[simp] theorem State.push_params (s : State) (m : Message) : (s.push m).params = s.params := rfl
@[simp] theorem State.push_streams (s : State) (m : Message) : (s.push m).streams = s.streams := rfl
@[simp] theorem State.push_responses (s : State) (m : Message) : (s.push m).responses = s.responses := rfl
@[simp] theorem State.push_turn (s : State) (m : Message) : (s.push m).turn = s.turn := rfl
@[simp] theorem State.push_caller (s : State) (m : Message) : (s.push m).caller = s.caller := rfl
@[simp] theorem State.push_ticks (s : State) (m : Message) : (s.push m).ticks = s.ticks := rfl
@[simp] theorem State.push_draws (s : State) (m : Message) : (s.push m).draws = s.draws := rfl
@[simp] theorem State.push_ep (s : State) (m : Message) (d : Dest) : (s.push m).ep d = s.ep d := by cases d <;> rfl

/-! ### respond -/

@[simp] theorem State.respond_q (s : State) (b : Bytes) : (s.respond b).q = s.q := rfl
@[simp] theorem State.respond_running (s : State) (b : Bytes) : (s.respond b).running = s.running := rfl
@[simp] theorem State.respond_w (s : State) (b : Bytes) : (s.respond b).w = s.w := rfl
@[simp] theorem State.respond_head (s : State) (b : Bytes) : (s.respond b).head = s.head := rfl
@[simp] theorem State.respond_bottom (s : State) (b : Bytes) : (s.respond b).bottom = s.bottom := rfl
@[simp] theorem State.respond_halted (s : State) (b : Bytes) : (s.respond b).halted = s.halted := rfl
@[simp] theorem State.respond_trace (s : State) (b : Bytes) : (s.respond b).trace = s.trace := rfl
@[simp] theorem State.respond_stopping (s : State) (b : Bytes) : (s.respond b).stopping = s.stopping := rfl
@[simp] theorem State.respond_suspended (s : State) (b : Bytes) : (s.respond b).suspended = s.suspended := rfl
@[simp] theorem State.respond_params (s : State) (b : Bytes) : (s.respond b).params = s.params := rfl
@[simp] theorem State.respond_streams (s : State) (b : Bytes) : (s.respond b).streams = s.streams := rfl
@[simp] theorem State.respond_responses (s : State) (b : Bytes) :
    (s.respond b).responses = s.responses ++ [⟨s.caller, b⟩] := rfl
@[simp] theorem State.respond_turn (s : State) (b : Bytes) : (s.respond b).turn = s.turn := rfl
@[simp] theorem State.respond_caller (s : State) (b : Bytes) : (s.respond b).caller = s.caller := rfl
@[simp] theorem State.respond_ticks (s : State) (b : Bytes) : (s.respond b).ticks = s.ticks := rfl
@[simp] theorem State.respond_draws (s : State) (b : Bytes) : (s.respond b).draws = s.draws := rfl
@[simp] theorem State.respond_ep (s : State) (b : Bytes) (d : Dest) : (s.respond b).ep d = s.ep d := by cases d <;> rfl

/-! ### complete -/

@[simp] theorem State.complete_q (s : State) : (s.complete).q = s.q := rfl
@[simp] theorem State.complete_running (s : State) : (s.complete).running = s.running := rfl
@[simp] theorem State.complete_w (s : State) : (s.complete).w = s.w := rfl
@[simp] theorem State.complete_head (s : State) : (s.complete).head = s.head := rfl
@[simp] theorem State.complete_bottom (s : State) : (s.complete).bottom = s.bottom := rfl
@[simp] theorem State.complete_halted (s : State) : (s.complete).halted = s.halted := rfl
@[simp] theorem State.complete_trace (s : State) : (s.complete).trace = s.trace := rfl
@[simp] theorem State.complete_stopping (s : State) : (s.complete).stopping = s.stopping := rfl
@[simp] theorem State.complete_suspended (s : State) :
    (s.complete).suspended = s.suspended.filter (fun p => p != s.caller) := rfl
@[simp] theorem State.complete_params (s : State) : (s.complete).params = s.params := rfl
@[simp] theorem State.complete_streams (s : State) :
    (s.complete).streams = s.streams.modify s.caller List.tail := rfl
@[simp] theorem State.complete_responses (s : State) : (s.complete).responses = s.responses := rfl
@[simp] theorem State.complete_turn (s : State) : (s.complete).turn = s.turn := rfl
@[simp] theorem State.complete_caller (s : State) : (s.complete).caller = s.caller := rfl
@[simp] theorem State.complete_ticks (s : State) : (s.complete).ticks = s.ticks := rfl
@[simp] theorem State.complete_draws (s : State) : (s.complete).draws = s.draws := rfl
@[simp] theorem State.complete_ep (s : State) (d : Dest) : (s.complete).ep d = s.ep d := by cases d <;> rfl

/-! ### suspend -/

@[simp] theorem State.suspend_q (s : State) : (s.suspend).q = s.q := rfl
@[simp] theorem State.suspend_running (s : State) : (s.suspend).running = s.running := rfl
@[simp] theorem State.suspend_w (s : State) : (s.suspend).w = s.w := rfl
@[simp] theorem State.suspend_head (s : State) : (s.suspend).head = s.head := rfl
@[simp] theorem State.suspend_bottom (s : State) : (s.suspend).bottom = s.bottom := rfl
@[simp] theorem State.suspend_halted (s : State) : (s.suspend).halted = s.halted := rfl
@[simp] theorem State.suspend_trace (s : State) : (s.suspend).trace = s.trace := rfl
@[simp] theorem State.suspend_stopping (s : State) : (s.suspend).stopping = s.stopping := rfl
@[simp] theorem State.suspend_suspended (s : State) :
    (s.suspend).suspended = if s.caller ∈ s.suspended then s.suspended else s.caller :: s.suspended := rfl
@[simp] theorem State.suspend_params (s : State) : (s.suspend).params = s.params := rfl
@[simp] theorem State.suspend_streams (s : State) : (s.suspend).streams = s.streams := rfl
@[simp] theorem State.suspend_responses (s : State) : (s.suspend).responses = s.responses := rfl
@[simp] theorem State.suspend_turn (s : State) : (s.suspend).turn = s.turn := rfl
@[simp] theorem State.suspend_caller (s : State) : (s.suspend).caller = s.caller := rfl
@[simp] theorem State.suspend_ticks (s : State) : (s.suspend).ticks = s.ticks := rfl
@[simp] theorem State.suspend_draws (s : State) : (s.suspend).draws = s.draws := rfl
@[simp] theorem State.suspend_ep (s : State) (d : Dest) : (s.suspend).ep d = s.ep d := by cases d <;> rfl

/-! ### exitStep -/

@[simp] theorem State.exitStep_q (s : State) : (s.exitStep).q = s.q := rfl
@[simp] theorem State.exitStep_running (s : State) : (s.exitStep).running = s.running := rfl
@[simp] theorem State.exitStep_w (s : State) : (s.exitStep).w = .exited := rfl
@[simp] theorem State.exitStep_head (s : State) : (s.exitStep).head = s.head := rfl
@[simp] theorem State.exitStep_bottom (s : State) : (s.exitStep).bottom = s.bottom := rfl
@[simp] theorem State.exitStep_halted (s : State) : (s.exitStep).halted = s.halted := rfl
@[simp] theorem State.exitStep_trace (s : State) : (s.exitStep).trace = s.trace := rfl
@[simp] theorem State.exitStep_stopping (s : State) : (s.exitStep).stopping = s.stopping := rfl
@[simp] theorem State.exitStep_suspended (s : State) : (s.exitStep).suspended = s.suspended := rfl
@[simp] theorem State.exitStep_params (s : State) : (s.exitStep).params = s.params := rfl
@[simp] theorem State.exitStep_streams (s : State) : (s.exitStep).streams = s.streams := rfl
@[simp] theorem State.exitStep_responses (s : State) : (s.exitStep).responses = s.responses := rfl
@[simp] theorem State.exitStep_turn (s : State) : (s.exitStep).turn = s.turn := rfl
@[simp] theorem State.exitStep_caller (s : State) : (s.exitStep).caller = s.caller := rfl
@[simp] theorem State.exitStep_ticks (s : State) : (s.exitStep).ticks = s.ticks := rfl
@[simp] theorem State.exitStep_draws (s : State) : (s.exitStep).draws = s.draws := rfl
@[simp] theorem State.exitStep_ep (s : State) (d : Dest) : (s.exitStep).ep d = s.ep d := by cases d <;> rfl

/-! ### reschedule -/

@[simp] theorem State.reschedule_q (s : State) : (s.reschedule).q = s.q := rfl
@[simp] theorem State.reschedule_running (s : State) : (s.reschedule).running = s.running := rfl
@[simp] theorem State.reschedule_w (s : State) : (s.reschedule).w = s.w := rfl
@[simp] theorem State.reschedule_head (s : State) : (s.reschedule).head = s.head := rfl
@[simp] theorem State.reschedule_bottom (s : State) : (s.reschedule).bottom = s.bottom := rfl
@[simp] theorem State.reschedule_halted (s : State) : (s.reschedule).halted = s.halted := rfl
@[simp] theorem State.reschedule_trace (s : State) : (s.reschedule).trace = s.trace := rfl
@[simp] theorem State.reschedule_stopping (s : State) : (s.reschedule).stopping = s.stopping := rfl
@[simp] theorem State.reschedule_suspended (s : State) : (s.reschedule).suspended = s.suspended := rfl
@[simp] theorem State.reschedule_params (s : State) : (s.reschedule).params = s.params := rfl
@[simp] theorem State.reschedule_streams (s : State) : (s.reschedule).streams = s.streams := rfl
@[simp] theorem State.reschedule_responses (s : State) : (s.reschedule).responses = s.responses := rfl
@[simp] theorem State.reschedule_turn (s : State) :
    (s.reschedule).turn = if (Config.schedule s.ticks).1 then .dispatcher else .producer := rfl
@[simp] theorem State.reschedule_caller (s : State) :
    (s.reschedule).caller = (Config.schedule s.ticks).2 := rfl
@[simp] theorem State.reschedule_ticks (s : State) : (s.reschedule).ticks = s.ticks + 1 := rfl
@[simp] theorem State.reschedule_draws (s : State) : (s.reschedule).draws = s.draws := rfl
@[simp] theorem State.reschedule_ep (s : State) (d : Dest) : (s.reschedule).ep d = s.ep d := by cases d <;> rfl

/-! ### withIssuedItem -/

@[simp] theorem State.withIssuedItem_q (s : State) (it : Item) :
    (s.withIssuedItem it).q = s.q := rfl
@[simp] theorem State.withIssuedItem_running (s : State) (it : Item) :
    (s.withIssuedItem it).running = s.running := rfl
@[simp] theorem State.withIssuedItem_w (s : State) (it : Item) :
    (s.withIssuedItem it).w = s.w := rfl
@[simp] theorem State.withIssuedItem_head (s : State) (it : Item) :
    (s.withIssuedItem it).head = s.head := rfl
@[simp] theorem State.withIssuedItem_bottom (s : State) (it : Item) :
    (s.withIssuedItem it).bottom = s.bottom := rfl
@[simp] theorem State.withIssuedItem_halted (s : State) (it : Item) :
    (s.withIssuedItem it).halted = s.halted := rfl
@[simp] theorem State.withIssuedItem_trace (s : State) (it : Item) :
    (s.withIssuedItem it).trace = s.trace := rfl
@[simp] theorem State.withIssuedItem_stopping (s : State) (it : Item) :
    (s.withIssuedItem it).stopping = s.stopping := rfl
@[simp] theorem State.withIssuedItem_suspended (s : State) (it : Item) :
    (s.withIssuedItem it).suspended = s.suspended := rfl
@[simp] theorem State.withIssuedItem_params (s : State) (it : Item) :
    (s.withIssuedItem it).params = s.params := rfl
@[simp] theorem State.withIssuedItem_streams (s : State) (it : Item) :
    (s.withIssuedItem it).streams = s.streams ++ [[it]] := rfl
@[simp] theorem State.withIssuedItem_responses (s : State) (it : Item) :
    (s.withIssuedItem it).responses = s.responses := rfl
@[simp] theorem State.withIssuedItem_turn (s : State) (it : Item) :
    (s.withIssuedItem it).turn = .producer := rfl
@[simp] theorem State.withIssuedItem_caller (s : State) (it : Item) :
    (s.withIssuedItem it).caller = s.streams.length := rfl
@[simp] theorem State.withIssuedItem_ticks (s : State) (it : Item) :
    (s.withIssuedItem it).ticks = s.ticks := rfl
@[simp] theorem State.withIssuedItem_draws (s : State) (it : Item) :
    (s.withIssuedItem it).draws = s.draws := rfl
@[simp] theorem State.withIssuedItem_ep (s : State) (it : Item) (d : Dest) : (s.withIssuedItem it).ep d = s.ep d := by cases d <;> rfl

/-! ### setEp -/

@[simp] theorem State.setEp_q (s : State) (d : Dest) (e : EndpointSet) : (s.setEp d e).q = s.q := by
  cases d <;> rfl
@[simp] theorem State.setEp_running (s : State) (d : Dest) (e : EndpointSet) : (s.setEp d e).running = s.running := by
  cases d <;> rfl
@[simp] theorem State.setEp_w (s : State) (d : Dest) (e : EndpointSet) : (s.setEp d e).w = s.w := by
  cases d <;> rfl
@[simp] theorem State.setEp_halted (s : State) (d : Dest) (e : EndpointSet) : (s.setEp d e).halted = s.halted := by
  cases d <;> rfl
@[simp] theorem State.setEp_trace (s : State) (d : Dest) (e : EndpointSet) : (s.setEp d e).trace = s.trace := by
  cases d <;> rfl
@[simp] theorem State.setEp_stopping (s : State) (d : Dest) (e : EndpointSet) : (s.setEp d e).stopping = s.stopping := by
  cases d <;> rfl
@[simp] theorem State.setEp_suspended (s : State) (d : Dest) (e : EndpointSet) : (s.setEp d e).suspended = s.suspended := by
  cases d <;> rfl
@[simp] theorem State.setEp_params (s : State) (d : Dest) (e : EndpointSet) : (s.setEp d e).params = s.params := by
  cases d <;> rfl
@[simp] theorem State.setEp_streams (s : State) (d : Dest) (e : EndpointSet) : (s.setEp d e).streams = s.streams := by
  cases d <;> rfl
@[simp] theorem State.setEp_responses (s : State) (d : Dest) (e : EndpointSet) : (s.setEp d e).responses = s.responses := by
  cases d <;> rfl
@[simp] theorem State.setEp_turn (s : State) (d : Dest) (e : EndpointSet) : (s.setEp d e).turn = s.turn := by
  cases d <;> rfl
@[simp] theorem State.setEp_caller (s : State) (d : Dest) (e : EndpointSet) : (s.setEp d e).caller = s.caller := by
  cases d <;> rfl
@[simp] theorem State.setEp_ticks (s : State) (d : Dest) (e : EndpointSet) : (s.setEp d e).ticks = s.ticks := by
  cases d <;> rfl
@[simp] theorem State.setEp_draws (s : State) (d : Dest) (e : EndpointSet) : (s.setEp d e).draws = s.draws := by
  cases d <;> rfl

@[simp] theorem State.setEp_head_head (s : State) (e : EndpointSet) : (s.setEp .head e).head = e := rfl
@[simp] theorem State.setEp_head_bottom (s : State) (e : EndpointSet) : (s.setEp .head e).bottom = s.bottom := rfl
@[simp] theorem State.setEp_bottom_head (s : State) (e : EndpointSet) : (s.setEp .bottom e).head = s.head := rfl
@[simp] theorem State.setEp_bottom_bottom (s : State) (e : EndpointSet) : (s.setEp .bottom e).bottom = e := rfl
@[simp] theorem State.ep_head (s : State) : s.ep .head = s.head := rfl
@[simp] theorem State.ep_bottom (s : State) : s.ep .bottom = s.bottom := rfl
@[simp] theorem State.ep_setEp_same (s : State) (d : Dest) (e : EndpointSet) : (s.setEp d e).ep d = e := by
  cases d <;> rfl
theorem State.ep_setEp_ne (s : State) {d d' : Dest} (e : EndpointSet) (h : d' ≠ d) :
    (s.setEp d e).ep d' = s.ep d' := by
  cases d <;> cases d' <;> first | rfl | exact absurd rfl h

/-! ### Updates written with record syntax by a meaning or a step -/

/-- A destination's record is read from the two fields alone. -/
theorem State.ep_congr {s t : State} (hh : t.head = s.head) (hb : t.bottom = s.bottom) (d : Dest) :
    t.ep d = s.ep d := by
  cases d
  · exact hh
  · exact hb

@[simp] theorem State.ep_setQW (s : State) (x : List Message) (p : Phase) (d : Dest) :
    ({ s with q := x, w := p } : State).ep d = s.ep d := by
  cases d <;> rfl
@[simp] theorem State.ep_setW (s : State) (x : Phase) (d : Dest) : ({ s with w := x } : State).ep d = s.ep d := by
  cases d <;> rfl
@[simp] theorem State.ep_setTrace (s : State) (x : List PortEvent) (d : Dest) :
    ({ s with trace := x } : State).ep d = s.ep d := by
  cases d <;> rfl
@[simp] theorem State.ep_setWDraws (s : State) (x : Phase) (n : Nat) (d : Dest) :
    ({ s with w := x, draws := n } : State).ep d = s.ep d := by
  cases d <;> rfl
@[simp] theorem State.ep_halted (s : State) (b : Bool) (p : Option Nat) (n : Nat) (d : Dest) :
    ({ s with halted := b, stopping := p, draws := n } : State).ep d = s.ep d := by
  cases d <;> rfl

/-! ### Outcomes -/

@[simp] theorem onNext_next (f : State → State) (s : State) : onNext f (.next s) = .next (f s) := rfl
@[simp] theorem onNext_refused (f : State → State) (r : Refusal) : onNext f (.refused r) = .refused r := rfl

theorem onNext_eq_next {f : State → State} {o : Host.Outcome State Fault Refusal} {t : State}
    (h : onNext f o = .next t) : ∃ u, o = .next u ∧ t = f u := by
  cases o with
  | next u => exact ⟨u, rfl, (Host.Outcome.next.inj h).symm⟩
  | fault r => exact nomatch r
  | refused r => cases h

end Sys2Proof.Machine
end

