-- ==== Sys2Proof/Laws/Ops.lean ====
section
/-! SUPPORT. For each shared operation over ports and counts: what it does to the trace and to its destination's
record, and that it leaves everything else alone. Later proofs cite these and do not unfold the operation. -/

namespace Sys2Proof.Machine

/-- `t` differs from `s` at most in the trace and in the record of `d`. -/
structure PortFrame (d : Dest) (s t : State) : Prop where
  q : t.q = s.q
  running : t.running = s.running
  w : t.w = s.w
  halted : t.halted = s.halted
  stopping : t.stopping = s.stopping
  suspended : t.suspended = s.suspended
  params : t.params = s.params
  streams : t.streams = s.streams
  responses : t.responses = s.responses
  turn : t.turn = s.turn
  caller : t.caller = s.caller
  ticks : t.ticks = s.ticks
  draws : t.draws = s.draws
  other : ∀ d', d' ≠ d → t.ep d' = s.ep d'

theorem PortFrame.refl (d : Dest) (s : State) : PortFrame d s s := by
  constructor <;> intros <;> rfl

theorem PortFrame.trans {d : Dest} {s t u : State} (h₁ : PortFrame d s t) (h₂ : PortFrame d t u) :
    PortFrame d s u where
  q := h₂.q.trans h₁.q
  running := h₂.running.trans h₁.running
  w := h₂.w.trans h₁.w
  halted := h₂.halted.trans h₁.halted
  stopping := h₂.stopping.trans h₁.stopping
  suspended := h₂.suspended.trans h₁.suspended
  params := h₂.params.trans h₁.params
  streams := h₂.streams.trans h₁.streams
  responses := h₂.responses.trans h₁.responses
  turn := h₂.turn.trans h₁.turn
  caller := h₂.caller.trans h₁.caller
  ticks := h₂.ticks.trans h₁.ticks
  draws := h₂.draws.trans h₁.draws
  other d' hd := (h₂.other d' hd).trans (h₁.other d' hd)

theorem PortFrame.of_record (d : Dest) (s : State) (ev : PortEvent) : PortFrame d s (s.record ev) := by
  constructor <;> intros <;> simp

theorem PortFrame.of_setEp (s : State) (d : Dest) (e : EndpointSet) : PortFrame d s (s.setEp d e) where
  q := by simp
  running := by simp
  w := by simp
  halted := by simp
  stopping := by simp
  suspended := by simp
  params := by simp
  streams := by simp
  responses := by simp
  turn := by simp
  caller := by simp
  ticks := by simp
  draws := by simp
  other _ hd := State.ep_setEp_ne s e hd

/-! ### OpenDevice and CloseDevice -/

theorem openDevice_frame (s : State) (d : Dest) (r : Option Link) : PortFrame d s (s.openDevice d r) := by
  cases r with
  | none => exact PortFrame.of_record d s _
  | some l => exact (PortFrame.of_record d s _).trans (PortFrame.of_setEp _ d _)

@[simp] theorem openDevice_trace (s : State) (d : Dest) (r : Option Link) :
    (s.openDevice d r).trace = s.trace ++ [.opened d r] := by
  cases r <;> simp [State.openDevice]

theorem openDevice_ep (s : State) (d : Dest) (r : Option Link) :
    (s.openDevice d r).ep d = { s.ep d with link := r.or (s.ep d).link } := by
  cases r <;> simp [State.openDevice]

theorem closeDevice_frame (s : State) (d : Dest) : PortFrame d s (s.closeDevice d) :=
  (PortFrame.of_record d s _).trans (PortFrame.of_setEp _ d _)

@[simp] theorem closeDevice_trace (s : State) (d : Dest) :
    (s.closeDevice d).trace = s.trace ++ [.closed d] := by
  simp [State.closeDevice]

theorem closeDevice_ep (s : State) (d : Dest) : (s.closeDevice d).ep d = { s.ep d with link := none } := by
  simp [State.closeDevice]

theorem connected_iff (s : State) (d : Dest) : s.connected d = true ↔ ∃ l, (s.ep d).link = some l := by
  simp [State.connected, Option.isSome_iff_exists]

theorem not_connected_iff (s : State) (d : Dest) : s.connected d = false ↔ (s.ep d).link = none := by
  simp [State.connected]

theorem closeIfConnected_frame (s : State) (d : Dest) : PortFrame d s (s.closeIfConnected d) := by
  unfold State.closeIfConnected
  split
  · exact closeDevice_frame s d
  · exact PortFrame.refl d s

/-- What closing a destination does: one CLOSE event when it was Connected, nothing when it was not. -/
theorem closeIfConnected_cases (s : State) (d : Dest) :
    (s.connected d = true ∧ s.closeIfConnected d = s.closeDevice d) ∨
      (s.connected d = false ∧ s.closeIfConnected d = s) := by
  cases h : s.connected d <;> simp [State.closeIfConnected, h]

theorem closeIfConnected_ep (s : State) (d : Dest) :
    (s.closeIfConnected d).ep d = { s.ep d with link := none } := by
  rcases closeIfConnected_cases s d with ⟨_, he⟩ | ⟨h, he⟩
  · rw [he, closeDevice_ep]
  · rw [he]
    rw [not_connected_iff] at h
    rw [← h]

/-! ### The failure path -/

theorem setFailCount_frame (s : State) (d : Dest) (c : Nat) : PortFrame d s (s.setFailCount d c) :=
  PortFrame.of_setEp s d _

@[simp] theorem setFailCount_trace (s : State) (d : Dest) (c : Nat) : (s.setFailCount d c).trace = s.trace := by
  simp [State.setFailCount]

@[simp] theorem setFailCount_ep (s : State) (d : Dest) (c : Nat) :
    (s.setFailCount d c).ep d = { s.ep d with failCount := c } := by
  simp [State.setFailCount]

@[simp] theorem setFailCount_connected (s : State) (d : Dest) (c : Nat) :
    (s.setFailCount d c).connected d = s.connected d := by
  simp [State.connected]

theorem reconnect_frame (s : State) (d : Dest) (r : Option Link) : PortFrame d s (s.reconnect d r) :=
  (closeIfConnected_frame s d).trans (openDevice_frame _ d r)

/-- The reconnect cycle leaves the destination with what the reopen drew, and the count as it was. -/
theorem reconnect_ep (s : State) (d : Dest) (r : Option Link) :
    (s.reconnect d r).ep d = { s.ep d with link := r } := by
  rw [State.reconnect, openDevice_ep, closeIfConnected_ep]
  simp

theorem reconnect_trace (s : State) (d : Dest) (r : Option Link) :
    (s.reconnect d r).trace =
      s.trace ++ (if s.connected d then [.closed d, .opened d r] else [.opened d r]) := by
  rcases closeIfConnected_cases s d with ⟨h, he⟩ | ⟨h, he⟩ <;> simp [State.reconnect, he, h]

theorem takeFailure_frame (s : State) (d : Dest) (r : Option Link) : PortFrame d s (s.takeFailure d r) := by
  simp only [State.takeFailure]
  split
  · exact (setFailCount_frame s d _).trans (reconnect_frame _ d r)
  · exact setFailCount_frame s d _

/-- Everything the failure path can do: it counts, and on a multiple of ten runs the reconnect cycle. -/
theorem takeFailure_cases (s : State) (d : Dest) (r : Option Link) :
    (reconnectDue ((s.ep d).failCount + 1) = false ∧
      (s.takeFailure d r).trace = s.trace ∧
      (s.takeFailure d r).ep d = { s.ep d with failCount := (s.ep d).failCount + 1 }) ∨
    (reconnectDue ((s.ep d).failCount + 1) = true ∧
      (s.takeFailure d r).trace =
        s.trace ++ (if s.connected d then [.closed d, .opened d r] else [.opened d r]) ∧
      (s.takeFailure d r).ep d = { link := r, failCount := (s.ep d).failCount + 1 }) := by
  cases h : reconnectDue ((s.ep d).failCount + 1)
  · simp [State.takeFailure, h]
  · simp [State.takeFailure, h, reconnect_trace, reconnect_ep]

theorem takeSuccess_frame (s : State) (d : Dest) : PortFrame d s (s.takeSuccess d) := setFailCount_frame s d 0

@[simp] theorem takeSuccess_trace (s : State) (d : Dest) : (s.takeSuccess d).trace = s.trace := by
  simp [State.takeSuccess]

@[simp] theorem takeSuccess_ep (s : State) (d : Dest) :
    (s.takeSuccess d).ep d = { s.ep d with failCount := 0 } := by
  simp [State.takeSuccess]

/-! ### The write attempt -/

theorem lazyOpen_frame (s : State) (d : Dest) (r : Option Link) : PortFrame d s (s.lazyOpen d r) := by
  unfold State.lazyOpen
  split
  · exact PortFrame.refl d s
  · exact openDevice_frame s d r

/-- The lazy open: nothing on a Connected destination, one open request on a Disconnected one. -/
theorem lazyOpen_cases (s : State) (d : Dest) (r : Option Link) :
    (s.connected d = true ∧ s.lazyOpen d r = s) ∨
    (s.connected d = false ∧ (s.lazyOpen d r).trace = s.trace ++ [.opened d r] ∧
      (s.lazyOpen d r).ep d = { link := r, failCount := (s.ep d).failCount }) := by
  cases h : s.connected d
  · have hl := (not_connected_iff s d).mp h
    exact .inr ⟨rfl, by simp [State.lazyOpen, h], by simp [State.lazyOpen, h, openDevice_ep, hl]⟩
  · exact .inl ⟨rfl, by simp [State.lazyOpen, h]⟩

theorem writeOpened_frame (s : State) (d : Dest) (bytes : Bytes) (a : Draws) :
    PortFrame d s (s.writeOpened d bytes a) := by
  simp only [State.writeOpened]
  split
  · split
    · exact ((PortFrame.of_record d s _).trans (PortFrame.of_record d _ _)).trans (takeFailure_frame _ d _)
    · exact ((PortFrame.of_record d s _).trans (PortFrame.of_record d _ _)).trans (takeSuccess_frame _ d)
  · exact (PortFrame.of_record d s _).trans (takeFailure_frame _ d _)

theorem writeAttempt_frame (s : State) (d : Dest) (bytes : Bytes) (a : Draws) :
    PortFrame d s (s.writeAttempt d bytes a) :=
  (lazyOpen_frame s d _).trans (writeOpened_frame _ d bytes a)

/-- The events of a write attempt after its lazy open, when a handle is held or not, without the reconnect
cycle. -/
def writeEvents (connected : Bool) (d : Dest) (bytes : Bytes) (a : Draws) : List PortEvent :=
  if connected then
    [.wrote d bytes a.err (min a.moved bytes.length),
      .attempted d bytes (if failed a.err (min a.moved bytes.length) then .fail else .ok)]
  else [.attempted d bytes .fail]

/-- Whether a write attempt fails, given whether a handle is held after the lazy open (R210, R211). -/
def attemptFails (connected : Bool) (bytes : Bytes) (a : Draws) : Bool :=
  !connected || failed a.err (min a.moved bytes.length)

/-- The events of a reconnect cycle (R213). -/
def reconnectEvents (connected : Bool) (d : Dest) (r : Option Link) : List PortEvent :=
  if connected then [.closed d, .opened d r] else [.opened d r]

/-- Everything a write attempt after its lazy open can do: succeed, fail, or fail and reconnect. -/
theorem writeOpened_cases (s : State) (d : Dest) (bytes : Bytes) (a : Draws) :
    (attemptFails (s.connected d) bytes a = false ∧ s.connected d = true ∧
      (s.writeOpened d bytes a).trace = s.trace ++ writeEvents (s.connected d) d bytes a ∧
      (s.writeOpened d bytes a).ep d = { s.ep d with failCount := 0 }) ∨
    (attemptFails (s.connected d) bytes a = true ∧ reconnectDue ((s.ep d).failCount + 1) = false ∧
      (s.writeOpened d bytes a).trace = s.trace ++ writeEvents (s.connected d) d bytes a ∧
      (s.writeOpened d bytes a).ep d = { s.ep d with failCount := (s.ep d).failCount + 1 }) ∨
    (attemptFails (s.connected d) bytes a = true ∧ reconnectDue ((s.ep d).failCount + 1) = true ∧
      (s.writeOpened d bytes a).trace =
        s.trace ++ writeEvents (s.connected d) d bytes a ++ reconnectEvents (s.connected d) d a.reopen ∧
      (s.writeOpened d bytes a).ep d = { link := a.reopen, failCount := (s.ep d).failCount + 1 }) := by
  have conn : ∀ ev, (s.record ev).connected d = s.connected d := fun ev => by simp [State.connected]
  cases hc : s.connected d
  · rcases takeFailure_cases (s.record (.attempted d bytes .fail)) d a.reopen with ⟨h, ht, he⟩ | ⟨h, ht, he⟩
    · exact .inr (.inl ⟨by simp [attemptFails], by simpa using h,
        by simp [State.writeOpened, hc, ht, writeEvents], by simp [State.writeOpened, hc, he]⟩)
    · exact .inr (.inr ⟨by simp [attemptFails], by simpa using h,
        by simp [State.writeOpened, hc, ht, writeEvents, reconnectEvents, conn],
        by simp [State.writeOpened, hc, he]⟩)
  · cases hf : failed a.err (min a.moved bytes.length)
    · exact .inl ⟨by simp [attemptFails, hf], rfl,
        by simp [State.writeOpened, hc, hf, writeEvents], by simp [State.writeOpened, hc, hf]⟩
    · rcases takeFailure_cases ((s.record (.wrote d bytes a.err (min a.moved bytes.length))).record
          (.attempted d bytes .fail)) d a.reopen with ⟨h, ht, he⟩ | ⟨h, ht, he⟩
      · exact .inr (.inl ⟨by simp [attemptFails, hf], by simpa using h,
          by simp [State.writeOpened, hc, hf, ht, writeEvents], by simp [State.writeOpened, hc, hf, he]⟩)
      · have conn2 : ((s.record (.wrote d bytes a.err (min a.moved bytes.length))).record
            (.attempted d bytes .fail)).connected d = true := by simpa [State.connected] using hc
        exact .inr (.inr ⟨by simp [attemptFails, hf], by simpa using h,
          by simp [State.writeOpened, hc, hf, ht, writeEvents, reconnectEvents, conn2],
          by simp [State.writeOpened, hc, hf, he]⟩)

/-- The events of the lazy open (R210). -/
def lazyEvents (connected : Bool) (d : Dest) (r : Option Link) : List PortEvent :=
  if connected then [] else [.opened d r]

/-- Everything a write attempt can do to the trace: the lazy open's event, the attempt's, the reconnect
cycle's. Here `c` says whether a handle is held after the lazy open. -/
theorem writeAttempt_trace (s : State) (d : Dest) (bytes : Bytes) (a : Draws) :
    ∃ c, c = (s.connected d || a.lazy.isSome) ∧
      ((s.writeAttempt d bytes a).trace =
          s.trace ++ lazyEvents (s.connected d) d a.lazy ++ writeEvents c d bytes a ∨
        (s.writeAttempt d bytes a).trace =
          s.trace ++ lazyEvents (s.connected d) d a.lazy ++ writeEvents c d bytes a ++
            reconnectEvents c d a.reopen) := by
  refine ⟨_, rfl, ?_⟩
  have hc : (s.lazyOpen d a.lazy).connected d = (s.connected d || a.lazy.isSome) := by
    rcases lazyOpen_cases s d a.lazy with ⟨h, e⟩ | ⟨h, _, e⟩
    · simp [e, h]
    · simp [State.connected, e] at h ⊢
      simp [h]
  have ht : (s.lazyOpen d a.lazy).trace = s.trace ++ lazyEvents (s.connected d) d a.lazy := by
    rcases lazyOpen_cases s d a.lazy with ⟨h, e⟩ | ⟨h, e, _⟩ <;> simp [e, h, lazyEvents]
  rw [← hc, ← ht, State.writeAttempt]
  rcases writeOpened_cases (s.lazyOpen d a.lazy) d bytes a with ⟨_, _, e, _⟩ | ⟨_, _, e, _⟩ | ⟨_, _, e, _⟩
  · exact .inl e
  · exact .inl e
  · exact .inr e

theorem writeAttempt_trace_grows (s : State) (d : Dest) (bytes : Bytes) (a : Draws) :
    s.trace <+: (s.writeAttempt d bytes a).trace := by
  obtain ⟨c, -, e | e⟩ := writeAttempt_trace s d bytes a <;> rw [e] <;> simp [List.append_assoc]

/-! ### The two closes of SHUTDOWN -/

/-- After both closes neither destination holds a handle and both counts are kept. -/
theorem closeBoth_ep (s : State) (headFirst : Bool) (d : Dest) :
    (s.closeBoth headFirst).ep d = { s.ep d with link := none } := by
  have other : ∀ (u : State) (e d' : Dest), d' ≠ e → (u.closeIfConnected e).ep d' = u.ep d' :=
    fun u e d' h => (closeIfConnected_frame u e).other d' h
  cases headFirst <;> cases d <;>
    simp [State.closeBoth, closeIfConnected_ep, other, -State.ep_head, -State.ep_bottom]

/-- Both closes touch nothing but the trace and the two records. -/
theorem closeBoth_frame (s : State) (headFirst : Bool) :
    (s.closeBoth headFirst).q = s.q ∧ (s.closeBoth headFirst).running = s.running ∧
    (s.closeBoth headFirst).w = s.w ∧ (s.closeBoth headFirst).halted = s.halted ∧
    (s.closeBoth headFirst).stopping = s.stopping ∧ (s.closeBoth headFirst).suspended = s.suspended ∧
    (s.closeBoth headFirst).params = s.params ∧ (s.closeBoth headFirst).streams = s.streams ∧
    (s.closeBoth headFirst).responses = s.responses ∧ (s.closeBoth headFirst).turn = s.turn ∧
    (s.closeBoth headFirst).caller = s.caller ∧ (s.closeBoth headFirst).ticks = s.ticks ∧
    (s.closeBoth headFirst).draws = s.draws := by
  have f := fun u e => closeIfConnected_frame u e
  cases headFirst <;>
    simp [State.closeBoth, (f _ _).q, (f _ _).running, (f _ _).w, (f _ _).halted, (f _ _).stopping,
      (f _ _).suspended, (f _ _).params, (f _ _).streams, (f _ _).responses, (f _ _).turn, (f _ _).caller,
      (f _ _).ticks, (f _ _).draws]

theorem closeIfConnected_trace (s : State) (d : Dest) :
    (s.closeIfConnected d).trace = s.trace ++ closeOf s d := by
  rcases closeIfConnected_cases s d with ⟨h, he⟩ | ⟨h, he⟩ <;> simp [he, closeOf, h]

/-- The trace of both closes: at most one CLOSE per destination, in the chosen order. -/
theorem closeBoth_trace (s : State) (headFirst : Bool) :
    (s.closeBoth headFirst).trace = s.trace ++
      (if headFirst then closeOf s .head ++ closeOf s .bottom
        else closeOf s .bottom ++ closeOf s .head) := by
  have other : ∀ (u : State) (e d' : Dest), d' ≠ e → closeOf (u.closeIfConnected e) d' = closeOf u d' :=
    fun u e d' h => by unfold closeOf State.connected; rw [(closeIfConnected_frame u e).other d' h]
  cases headFirst <;> simp [State.closeBoth, closeIfConnected_trace, other]

/-! ### Queue and phase -/

/-- Everything a send command can do (R170, R178). -/
theorem send_cases (s : State) (m : Message) :
    (s.halted = true ∧ s.isSuspended = true ∧ s.send m = .next s) ∨
    (s.halted = true ∧ s.isSuspended = false ∧ s.send m = .refused .halted) ∨
    (s.halted = false ∧ s.hasRoom = true ∧ s.send m = .next (s.push m).complete) ∨
    (s.halted = false ∧ s.hasRoom = false ∧ s.send m = .next s.suspend) := by
  cases h : s.halted <;> cases h' : s.isSuspended <;> cases h'' : s.hasRoom <;> simp [State.send, h, h', h'']

theorem startRoute_idle (s : State) (p : List Attempt) (h : s.w = .idle) :
    s.startRoute p = { s with w := phaseOf p } := by
  simp [State.startRoute, h]

/-- Outside the phase `Idle` a route is not taken up. -/
theorem startRoute_not_idle (s : State) (p : List Attempt) (h : s.w ≠ .idle) : s.startRoute p = s := by
  cases hw : s.w <;> simp_all [State.startRoute]

@[simp] theorem phaseOf_pending (p : List Attempt) : (phaseOf p).pending = p := by cases p <;> rfl

@[simp] theorem phaseOf_ne_exited (p : List Attempt) : phaseOf p ≠ .exited := by cases p <;> simp [phaseOf]

/-- The route of a message has the shape R46 (i) asks for. -/
theorem route_legal (m : Message) : (phaseOf (route m)).legal = true := by
  obtain ⟨kind, data⟩ := m
  cases kind with
  | sendToHead => rfl
  | sendToBottom => rfl
  | sendToPoint =>
    cases h : splitLast data with
    | none => simp [route, h, phaseOf, Phase.legal]
    | some p =>
      simp only [route, h, tagRoute]
      split
      · rfl
      · split
        · rfl
        · split
          · simp [phaseOf, Phase.legal]
          · rfl

/-- What is left of a legal pending route after its first attempt is legal. -/
theorem legal_rest (a : Attempt) (rest : List Attempt) (h : (Phase.busy a rest).legal = true) :
    (phaseOf rest).legal = true := by
  match rest with
  | [] => rfl
  | [_] => rfl
  | _ :: _ :: _ => simp [Phase.legal] at h

end Sys2Proof.Machine
end

