-- ==== Sys2Proof/Laws/Step.lean ====
section
/-! SUPPORT. Once for all: what a step of the machine can do. Every claim about `step` is a case analysis over
`Effect`; none has to unfold the dispatch. -/

namespace Sys2Proof.Machine

/-! ### The decoder on the sequences it splits -/

@[simp] theorem splitLast_append (front : Bytes) (z : Byte) : splitLast (front ++ [z]) = some (front, z) := by
  induction front with
  | nil => rfl
  | cons b bs ih => simp [splitLast, ih]

theorem splitLast_eq_none {bs : Bytes} : splitLast bs = none ↔ bs = [] := by
  cases bs with
  | nil => simp [splitLast]
  | cons b bs => simp only [splitLast]; split <;> simp

theorem splitLast_eq_some {bs front : Bytes} {z : Byte} (h : splitLast bs = some (front, z)) :
    bs = front ++ [z] := by
  rcases List.eq_nil_or_concat bs with rfl | ⟨l, b, rfl⟩
  · simp [splitLast] at h
  · simp at h; simp [h]

/-- The dispatcher's fetch of a queued message runs the instruction of its kind. -/
theorem decode_encodeMessage (m : Message) :
    decode (encodeMessage m) = .ok (match m.kind with
      | .sendToHead => .kindSendToHead m.data
      | .sendToBottom => .kindSendToBottom m.data
      | .sendToPoint => .kindSendToPoint m.data) := by
  obtain ⟨kind, data⟩ := m
  cases kind <;> rfl

/-- Whatever the message, the dispatcher takes up its route (R201). -/
theorem runItem_encodeMessage (m : Message) (s : State) :
    runItem (encodeMessage m) s = .next (s.startRoute (route m)) := by
  obtain ⟨kind, data⟩ := m
  cases kind <;> rfl

/-! ### What an instruction a producer issues can do -/

/-- Everything an instruction that a producer issues can do to the state, before the schedule. -/
inductive ProducerEffect (s : State) : State → Prop
  /-- nothing: no item to issue, or a wait that is already recorded -/
  | idle : ProducerEffect s s
  /-- a serializer result is handed out and the command completes -/
  | responded (b : Bytes) : ProducerEffect s (s.respond b).complete
  /-- a message is pushed and the command completes -/
  | pushed (m : Message) (live : s.halted = false) (room : s.hasRoom = true) :
      ProducerEffect s (s.push m).complete
  /-- the command is blocked -/
  | waited : ProducerEffect s s.suspend
  /-- WAITPENDING completes -/
  | completed (empty : s.q = []) : ProducerEffect s s.complete
  /-- SHUTDOWN, step 1 -/
  | shutdownBegun (live : s.halted = false) (none : s.stopping = none) :
      ProducerEffect s { s.suspend with running := false, stopping := some s.caller }
  /-- SHUTDOWN, steps 3 and 4 -/
  | shutdownDone (live : s.halted = false) (mine : s.stopping = some s.caller) (joined : s.w = .exited) :
      ProducerEffect s { (s.closeBoth (Config.closeHeadFirst s.draws)).complete with
        halted := true, stopping := none, draws := s.draws + 1 }

/-- Everything a step of the dispatcher can do to the state, before the schedule. -/
inductive DispatcherEffect (s : State) : State → Prop
  /-- no step is enabled (R265, and after EXIT) -/
  | idle (blocked : s.w = .exited ∨ (s.w = .idle ∧ s.q = [] ∧ s.running = true)) : DispatcherEffect s s
  /-- DEQUEUE -/
  | dequeued (m : Message) (ms : List Message) (free : s.w = .idle) (head : s.q = m :: ms)
      (may : (s.running || s.params.drainOnShutdown) = true) :
      DispatcherEffect s { s with q := ms, w := phaseOf (route m) }
  /-- ATTEMPT -/
  | attempted (a : Attempt) (rest : List Attempt) (busy : s.w = .busy a rest) :
      DispatcherEffect s (s.attemptStep a rest)
  /-- EXIT -/
  | exited (free : s.w = .idle) (stopped : s.running = false)
      (may : s.q = [] ∨ s.params.drainOnShutdown = false) : DispatcherEffect s s.exitStep

theorem send_effect {s t : State} {m : Message} (h : s.send m = .next t) : ProducerEffect s t := by
  rcases send_cases s m with ⟨_, _, e⟩ | ⟨_, _, e⟩ | ⟨live, room, e⟩ | ⟨_, _, e⟩ <;> rw [e] at h <;> cases h
  · exact .idle
  · exact .pushed m live room
  · exact .waited

theorem execWaitPending_effect {s t : State} (h : execWaitPending s = .next t) : ProducerEffect s t := by
  unfold execWaitPending at h
  split at h
  · cases h
  · split at h <;> cases h
    · exact .completed (by simp_all)
    · exact .waited

theorem execShutdown_effect {s t : State} (h : execShutdown s = .next t) : ProducerEffect s t := by
  unfold execShutdown at h
  split at h
  · cases h
  · rename_i live
    have live : s.halted = false := by simpa using live
    split at h
    · cases h
      exact .shutdownBegun live (by assumption)
    · split at h
      · rename_i p hp heq
        subst heq
        split at h <;> cases h
        · exact .shutdownDone live hp (by assumption)
        · exact .waited
        · exact .waited
      · cases h

theorem execSendCmd_effect {s t : State} {mode ack tag : Byte} {es : Bytes}
    (h : execSendCmd mode es ack tag s = .next t) : ProducerEffect s t := by
  unfold execSendCmd at h
  split at h
  · cases h
  · exact send_effect h

theorem execComputeFrame_effect {s t : State} {ack : Byte} {datas : Bytes}
    (h : execComputeFrame ack datas s = .next t) : ProducerEffect s t := by
  unfold execComputeFrame at h
  split at h <;> cases h
  exact .responded _

theorem execFrame_effect {s t : State} {msgSize : BitVec 32} {a1 a2 ck : Byte} {mmnn : BitVec 16} {datas : Bytes}
    (h : execFrame msgSize a1 a2 mmnn datas ck s = .next t) : ProducerEffect s t := by
  unfold execFrame at h
  split at h <;> cases h
  exact .responded _

/-- Decoding stays within a format (R90, R108). -/
theorem decode_format {it : Item} {i : Instr} (hd : decode it = .ok i) : i.format = it.format := by
  cases it with
  | command bytes =>
    cases bytes with
    | nil => cases hd
    | cons op rest =>
      simp only [decode, decodeCommand] at hd
      split at hd
      all_goals first
        | (cases hd; rfl)
        | (split at hd <;> cases hd; rfl)
  | pseudo mode es ack tag => cases hd; rfl
  | message code data =>
    simp only [decode, decodeKind] at hd
    split at hd <;> cases hd <;> rfl
  | tagged bytes =>
    simp only [decode, decodeTag] at hd
    split at hd
    · cases hd
    · split_ifs at hd <;> cases hd <;> rfl
  | frame bytes =>
    simp only [decode, decodeFrame] at hd
    split at hd
    · split at hd <;> cases hd
      rfl
    · cases hd
  | routed bytes =>
    simp only [decode] at hd
    split at hd <;> cases hd
    rfl
  | payload bytes =>
    simp only [decode] at hd
    split at hd <;> cases hd
    rfl

/-- What a producer can present is a command or the pseudo-operation (R108). -/
theorem issuable_iff (it : Item) : issuable it = true ↔ it.format = .cmd ∨ it.format = .pseudo := by
  cases it <;> simp [issuable, Item.format]

/-- What a producer can present decodes to none of the dispatcher's decode stages (R108). -/
theorem issuable_decode {it : Item} {i : Instr} (h : issuable it = true) (hd : decode it = .ok i) :
    i.format ≠ .kind ∧ i.format ≠ .tag := by
  rw [decode_format hd]
  rcases (issuable_iff it).mp h with e | e <;> simp [e]

/-- An instruction that is none of the dispatcher's decode stages has one of the producer effects. -/
theorem exec_effect {i : Instr} {s t : State} (hk : i.format ≠ .kind) (ht : i.format ≠ .tag)
    (h : exec i s = .next t) : ProducerEffect s t := by
  cases i with
  | buildPayload => cases h; exact .responded _
  | computeFrame => exact execComputeFrame_effect h
  | appendTag => cases h; exact .responded _
  | sendHead => exact send_effect h
  | sendBottom => exact send_effect h
  | sendPoint => exact send_effect h
  | waitPending => exact execWaitPending_effect h
  | shutdown => exact execShutdown_effect h
  | cmdReserved => cases h
  | sendCmd => exact execSendCmd_effect h
  | kindSendToHead => exact absurd rfl hk
  | kindSendToBottom => exact absurd rfl hk
  | kindSendToPoint => exact absurd rfl hk
  | kindReserved => exact absurd rfl hk
  | tagHead => exact absurd rfl ht
  | tagBottom => exact absurd rfl ht
  | tagBroadcast => exact absurd rfl ht
  | tagReserved => exact absurd rfl ht
  | frame => exact execFrame_effect h
  | rbuf => cases h; exact .responded _
  | cmdPayload => cases h; exact .responded _

/-- An instruction of the dispatcher's decode stages takes up some route, or is refused. -/
theorem exec_route {i : Instr} {s t : State} (hk : i.format = .kind ∨ i.format = .tag) (h : exec i s = .next t) :
    ∃ p, t = s.startRoute p := by
  cases i with
  | kindSendToHead => cases h; exact ⟨_, rfl⟩
  | kindSendToBottom => cases h; exact ⟨_, rfl⟩
  | kindSendToPoint => cases h; exact ⟨_, rfl⟩
  | kindReserved => cases h
  | tagHead => cases h; exact ⟨_, rfl⟩
  | tagBottom => cases h; exact ⟨_, rfl⟩
  | tagBroadcast => cases h; exact ⟨_, rfl⟩
  | tagReserved => cases h; exact ⟨_, rfl⟩
  | buildPayload => simp [Instr.format] at hk
  | computeFrame => simp [Instr.format] at hk
  | appendTag => simp [Instr.format] at hk
  | sendHead => simp [Instr.format] at hk
  | sendBottom => simp [Instr.format] at hk
  | sendPoint => simp [Instr.format] at hk
  | waitPending => simp [Instr.format] at hk
  | shutdown => simp [Instr.format] at hk
  | cmdReserved => simp [Instr.format] at hk
  | sendCmd => simp [Instr.format] at hk
  | frame => simp [Instr.format] at hk
  | rbuf => simp [Instr.format] at hk
  | cmdPayload => simp [Instr.format] at hk

/-! ### What a turn can do -/

theorem producerStep_effect {s t : State} (h : producerStep s = .next t) : ProducerEffect s t := by
  unfold producerStep at h
  split at h
  · cases h; exact .idle
  · split at h
    · rename_i hi
      unfold runItem at h
      split at h
      · rename_i hd
        exact exec_effect (issuable_decode hi hd).1 (issuable_decode hi hd).2 h
      · cases h
    · cases h

/-- The dispatcher never stops, and takes its one enabled step (R200). -/
theorem dispatcherStep_cases (s : State) :
    (∃ a rest, s.w = .busy a rest ∧ dispatcherStep s = .next (s.attemptStep a rest)) ∨
    (∃ m ms, s.w = .idle ∧ s.q = m :: ms ∧ (s.running || s.params.drainOnShutdown) = true ∧
      dispatcherStep s = .next { s with q := ms, w := phaseOf (route m) }) ∨
    (s.w = .idle ∧ s.running = false ∧ (s.q = [] ∨ s.params.drainOnShutdown = false) ∧
      dispatcherStep s = .next s.exitStep) ∨
    ((s.w = .exited ∨ (s.w = .idle ∧ s.q = [] ∧ s.running = true)) ∧ dispatcherStep s = .next s) := by
  cases hw : s.w with
  | exited => exact .inr (.inr (.inr ⟨.inl rfl, by simp [dispatcherStep, hw]⟩))
  | busy a rest => exact .inl ⟨a, rest, rfl, by simp [dispatcherStep, hw]⟩
  | idle =>
    cases hq : s.q with
    | nil =>
      cases hr : s.running
      · exact .inr (.inr (.inl ⟨rfl, rfl, .inl rfl, by simp [dispatcherStep, hw, hq, hr]⟩))
      · exact .inr (.inr (.inr ⟨.inr ⟨rfl, rfl, rfl⟩, by simp [dispatcherStep, hw, hq, hr]⟩))
    | cons m ms =>
      cases hm : (s.running || s.params.drainOnShutdown)
      · have := Bool.or_eq_false_iff.mp hm
        exact .inr (.inr (.inl ⟨rfl, this.1, .inr this.2, by simp [dispatcherStep, hw, hq, hm]⟩))
      · refine .inr (.inl ⟨m, ms, rfl, rfl, rfl, ?_⟩)
        simp [dispatcherStep, hw, hq, hm, runItem_encodeMessage, State.startRoute]

theorem dispatcherStep_effect {s t : State} (h : dispatcherStep s = .next t) : DispatcherEffect s t := by
  rcases dispatcherStep_cases s with ⟨a, rest, hw, e⟩ | ⟨m, ms, hw, hq, hm, e⟩ | ⟨hw, hr, hq, e⟩ | ⟨hb, e⟩ <;>
    rw [e] at h <;> cases h
  · exact .attempted a rest hw
  · exact .dequeued m ms hw hq hm
  · exact .exited hw hr hq
  · exact .idle hb

/-- EVERYTHING A STEP CAN DO: an effect of the agent whose turn it is, then the schedule's choice of who is
next. -/
theorem step_effect {s t : State} (h : step s = .next t) :
    ∃ u, t = u.reschedule ∧
      ((s.turn = .producer ∧ ProducerEffect s u) ∨ (s.turn = .dispatcher ∧ DispatcherEffect s u)) := by
  obtain ⟨u, hu, rfl⟩ := onNext_eq_next h
  refine ⟨u, rfl, ?_⟩
  unfold agentStep at hu
  split at hu
  · exact .inl ⟨by assumption, producerStep_effect hu⟩
  · exact .inr ⟨by assumption, dispatcherStep_effect hu⟩

/-- The fields an ATTEMPT leaves alone, besides those `PortFrame` names. -/
theorem attemptStep_fields (s : State) (a : Attempt) (rest : List Attempt) :
    (s.attemptStep a rest).w = phaseOf rest ∧
    (s.attemptStep a rest).trace =
      (s.writeAttempt a.dest a.bytes (s.attemptDraws a.dest a.bytes)).trace ∧
    (∀ d, (s.attemptStep a rest).ep d =
      (s.writeAttempt a.dest a.bytes (s.attemptDraws a.dest a.bytes)).ep d) ∧
    (s.attemptStep a rest).q = s.q ∧ (s.attemptStep a rest).running = s.running ∧
    (s.attemptStep a rest).halted = s.halted ∧ (s.attemptStep a rest).stopping = s.stopping ∧
    (s.attemptStep a rest).suspended = s.suspended ∧ (s.attemptStep a rest).params = s.params ∧
    (s.attemptStep a rest).streams = s.streams ∧ (s.attemptStep a rest).responses = s.responses := by
  have f := writeAttempt_frame s a.dest a.bytes (s.attemptDraws a.dest a.bytes)
  exact ⟨rfl, rfl, fun d => by cases d <;> rfl, f.q, f.running, f.halted, f.stopping, f.suspended, f.params,
    f.streams, f.responses⟩

end Sys2Proof.Machine
end

