-- ==== Sys2Proof/Laws/Codec.lean ====
section
/-! SUPPORT. The number primitives of R11 undo each other, and a frame's bytes in explicit form, so that no proof
about an offset unfolds the layout. -/

namespace Sys2Proof.Machine

@[simp] theorem low8_toNat (v : Nat) : (low8 v).toNat = v % 256 := by simp [low8]

/-- Reading back the four bytes of a big-endian field (R62). -/
theorem beNat_be32 (v : Nat) (h : v < 2 ^ 32) : beNat (be32 v) = v := by
  simp [beNat, be32]
  omega

/-- Reading back the two bytes of a big-endian field (R62). -/
theorem beNat_be16 (v : Nat) (h : v < 2 ^ 16) : beNat (be16 v) = v := by
  simp [beNat, be16]
  omega

/-- Writing what was read from four bytes gives the four bytes. -/
theorem be32_beNat (a b c d : Byte) : be32 (beNat [a, b, c, d]) = [a, b, c, d] := by
  have := a.isLt
  have := b.isLt
  have := c.isLt
  have := d.isLt
  have e : ∀ (x : Byte) (v : Nat), v % 256 = x.toNat → low8 v = x := fun x v h =>
    BitVec.eq_of_toNat_eq (by rw [low8_toNat, h])
  simp only [be32, beNat, List.foldl]
  rw [e a _ (by omega), e b _ (by omega), e c _ (by omega), e d _ (by omega)]

/-- Writing what was read from two bytes gives the two bytes. -/
theorem be16_beNat (a b : Byte) : be16 (beNat [a, b]) = [a, b] := by
  have := a.isLt
  have := b.isLt
  have e : ∀ (x : Byte) (v : Nat), v % 256 = x.toNat → low8 v = x := fun x v h =>
    BitVec.eq_of_toNat_eq (by rw [low8_toNat, h])
  simp only [be16, beNat, List.foldl]
  rw [e a _ (by omega), e b _ (by omega)]

/-- A frame's bytes one by one: 21 header bytes, the payload, the checksum (R91). -/
theorem layoutFrame_eq (msgSize : Nat) (ack1 ack2 : Byte) (mmnn : Nat) (datas : Bytes) (ck : Byte) :
    layoutFrame msgSize ack1 ack2 mmnn datas ck =
      [0xA4#8, 0x03#8, 0x00#8, 0x00#8, low8 (msgSize / 2 ^ 24), low8 (msgSize / 2 ^ 16), low8 (msgSize / 2 ^ 8),
        low8 msgSize, ack1, 0x00#8, 0x00#8, 0x00#8, 0x00#8, 0x00#8, 0x00#8, 0x00#8, 0xFF#8, 0xA5#8, ack2,
        low8 (mmnn / 256), low8 mmnn] ++ (datas ++ [ck]) := by
  simp [layoutFrame, be16, be32, unusedLen, typeField, subtypeField, frameHeadField, low8, List.replicate]

theorem layoutFrame_length (msgSize : Nat) (ack1 ack2 : Byte) (mmnn : Nat) (datas : Bytes) (ck : Byte) :
    (layoutFrame msgSize ack1 ack2 mmnn datas ck).length = datas.length + 22 := by
  simp [layoutFrame_eq]

/-- The checksum as the one number it is the low byte of (R134). -/
theorem checksum_eq (ack : Byte) (datas : Bytes) :
    checksum ack datas = low8 (255 + 165 + ack.toNat + (datas.length + 1) + sumBytes datas) := by
  simp [checksum, sumBytes, be16, frameHeadField, low8, mmnnExtra]

/-- Addition of low bytes is addition of the numbers (R136). -/
theorem low8_add (a b : Nat) : low8 (a + b) = low8 a + low8 b :=
  BitVec.eq_of_toNat_eq (by simp [BitVec.toNat_add])

/-- The signed value of a lane is -1 exactly when its bits are `0xFF` (R9, R102). -/
theorem s8OfU8_eq_sentinel (b : Byte) : s8OfU8 b = sentinel ↔ b = 0xFF#8 := by
  revert b
  decide

/-- Taking a lane to its signed value and back changes nothing (R9). -/
theorem u8OfS8_s8OfU8 (b : Byte) : u8OfS8 (s8OfU8 b) = b := by
  revert b
  decide

end Sys2Proof.Machine
end

