-- ==== Sys2Proof/Laws/PerInstr.lean ====
section
/-! SUPPORT. The statements made per instruction: the encoder writes an instruction in the format its row of
spec/opcode_table.json stands in (R90, R108). -/

namespace Sys2Proof.Laws.EncodedFormat

/-- The item of an instruction is in the instruction's own format. -/
def Statement (i : Instr) : Prop := (encode i).format = i.format

theorem buildPayload (mode : Byte) (orderedBytes : Bytes) : Statement (.buildPayload mode orderedBytes) := rfl
theorem computeFrame (ack : Byte) (datas : Bytes) : Statement (.computeFrame ack datas) := rfl
theorem appendTag (frame : Bytes) (tag : Byte) : Statement (.appendTag frame tag) := rfl
theorem sendHead (bytes : Bytes) : Statement (.sendHead bytes) := rfl
theorem sendBottom (bytes : Bytes) : Statement (.sendBottom bytes) := rfl
theorem sendPoint (rbuf : Bytes) : Statement (.sendPoint rbuf) := rfl
theorem waitPending : Statement .waitPending := rfl
theorem shutdown : Statement .shutdown := rfl
theorem cmdReserved (op : Byte) (operands : Bytes) : Statement (.cmdReserved op operands) := rfl
theorem sendCmd (mode : Byte) (orderedBytes : Bytes) (ack : Byte) (tag : Byte) :
    Statement (.sendCmd mode orderedBytes ack tag) := rfl
theorem kindSendToHead (data : Bytes) : Statement (.kindSendToHead data) := rfl
theorem kindSendToBottom (data : Bytes) : Statement (.kindSendToBottom data) := rfl
theorem kindSendToPoint (data : Bytes) : Statement (.kindSendToPoint data) := rfl
theorem kindReserved (data : Bytes) : Statement (.kindReserved data) := rfl
theorem tagHead (frame : Bytes) : Statement (.tagHead frame) := rfl
theorem tagBottom (frame : Bytes) : Statement (.tagBottom frame) := rfl
theorem tagBroadcast (frame : Bytes) : Statement (.tagBroadcast frame) := rfl
theorem tagReserved (frame : Bytes) (tag : Byte) : Statement (.tagReserved frame tag) := rfl
theorem frame (msgSize : BitVec 32) (ack1 : Byte) (ack2 : Byte) (mmnn : BitVec 16) (datas : Bytes) (checksum : Byte) :
    Statement (.frame msgSize ack1 ack2 mmnn datas checksum) := rfl
theorem rbuf (frame : Bytes) (tag : Byte) : Statement (.rbuf frame tag) := rfl
theorem cmdPayload (mode : Byte) (orderedBytes : Bytes) : Statement (.cmdPayload mode orderedBytes) := rfl

end Sys2Proof.Laws.EncodedFormat
end

