-- ==== Sys2Proof/Laws/Trace.lean ====
section
/-! SUPPORT. Traces read back: the replays of Safety.lean over appended traces, and the one attempt that a write
attempt reports. -/

namespace Sys2Proof.Machine

theorem portReplay_append (d : Dest) (t u : List PortEvent) :
    portReplay d (t ++ u) = u.foldl (portEvent d) (portReplay d t) := List.foldl_append ..

theorem countReplay_append (d : Dest) (t u : List PortEvent) :
    countReplay d (t ++ u) = u.foldl (countEvent d) (countReplay d t) := List.foldl_append ..

theorem attemptsOf_append (t u : List PortEvent) : attemptsOf (t ++ u) = attemptsOf t ++ attemptsOf u :=
  List.filterMap_append ..

theorem closesOf_append (d : Dest) (t u : List PortEvent) : closesOf d (t ++ u) = closesOf d t + closesOf d u :=
  List.countP_append ..

theorem opensOf_append (d : Dest) (t u : List PortEvent) : opensOf d (t ++ u) = opensOf d t + opensOf d u :=
  List.countP_append ..

/-- A judged trace stays judged when judged events follow. -/
theorem writesJudged_append (t u : List PortEvent) (h : writesJudged t = true) :
    writesJudged (t ++ u) = writesJudged u := by
  induction t with
  | nil => rfl
  | cons e t ih =>
    cases e with
    | wrote d b er n =>
      simp only [writesJudged, Bool.and_eq_true] at h
      obtain ⟨h1, h2⟩ := h
      cases t with
      | nil => simp at h1
      | cons x y =>
        simp only [List.cons_append, writesJudged] at *
        rw [← ih h2]
        cases x <;> simp_all
    | opened d r => exact ih h
    | closed d => exact ih h
    | attempted d b v => exact ih h

/-- One write attempt reports exactly one attempt, of its own buffer, whatever else it does. -/
theorem attemptsOf_writeAttempt (s : State) (d : Dest) (bytes : Bytes) (a : Draws) :
    attemptsOf (s.writeAttempt d bytes a).trace = attemptsOf s.trace ++ [⟨d, bytes⟩] := by
  obtain ⟨c, -, e | e⟩ := writeAttempt_trace s d bytes a <;> rw [e] <;> simp only [attemptsOf_append, List.append_assoc] <;>
    cases s.connected d <;> cases c <;> rfl

end Sys2Proof.Machine
end

