-- ==== Sys2Proof/Tests/Slice0.lean ====
section
/-! SUPPORT. Tests of the model on fixed values, and for each statement with hypotheses a witness that meets them.
Expected values come from the tables of 30_encoding.md and from the vectors of 95_test_vectors.md. -/

namespace Sys2Proof.Tests

open Sys2Proof.Machine

/-! ### Small states -/

/-- A link that a successful open hands over. -/
def someLink : Link := { handle := 7, outEp := 2, inEp := none, iface := 0 }

/-- Another link. -/
def otherLink : Link := { handle := 8, outEp := 2, inEp := some 3, iface := 1 }

/-- The reset state with both parameters given. -/
def fresh : State := { State.reset with params := { queueDepth := none, drainOnShutdown := true } }

/-- `fresh` with head Connected and this failure count. -/
def headLinked (count : Nat) : State := { fresh with head := { link := some someLink, failCount := count } }

/-- `fresh` with head Disconnected and this failure count. -/
def headAbsent (count : Nat) : State := { fresh with head := { link := none, failCount := count } }

/-- A halted state that meets the invariant. -/
def haltedState : State := { fresh with running := false, w := .exited, halted := true }

/-- A message of program P5. -/
def aMessage : Message := { kind := .sendToBottom, data := [0x01] }

/-- One field of the next state of an outcome. -/
def after {α : Type} (o : Host.Outcome State Fault Refusal) (f : State → α) : Option α :=
  match o with
  | .next s => some (f s)
  | .fault _ => none
  | .refused _ => none

/-- The refusal of an outcome. -/
def refusal (o : Host.Outcome State Fault Refusal) : Option Refusal :=
  match o with
  | .next _ => none
  | .fault _ => none
  | .refused r => some r

/-- The environment's answers to one attempt. -/
def answers (lazy : Option Link) (err : Int) (moved : Nat) (reopen : Option Link) : Draws :=
  { lazy := lazy, err := err, moved := moved, reopen := reopen }

/-! ### Ill-formed instructions are refused by each check of WellFormed -/

theorem zeros_length (n : Nat) : (List.replicate n (0x00 : Byte)).length = n := List.length_replicate

/-- `n` zero bytes after a zero mode: all are kept. -/
theorem buildPayload_zeros (n : Nat) : (buildPayload 0x00 (List.replicate n 0x00)).length = n + 1 := by
  simp [buildPayload, buildPayloadWith, filterCoversMode, s8OfU8, sentinel]

theorem wellFormed_computeFrame (ack : Byte) (datas : Bytes) :
    (Instr.computeFrame ack datas).wellFormed = decide (datas.length ≤ nMax) := rfl

theorem wellFormed_sendCmd (mode ack tag : Byte) (es : Bytes) :
    (Instr.sendCmd mode es ack tag).wellFormed = decide ((buildPayload mode es).length ≤ nMax) := rfl

theorem test_illFormed_computeFrame (ack : Byte) :
    (Instr.computeFrame ack (List.replicate 65535 0x00)).wellFormed = false := by
  rw [wellFormed_computeFrame, zeros_length]; rfl

theorem test_wellFormed_computeFrame (ack : Byte) :
    (Instr.computeFrame ack (List.replicate 65534 0x00)).wellFormed = true := by
  rw [wellFormed_computeFrame, zeros_length]; rfl

theorem test_illFormed_sendCmd (ack tag : Byte) :
    (Instr.sendCmd 0x00 (List.replicate 65534 0x00) ack tag).wellFormed = false := by
  rw [wellFormed_sendCmd, buildPayload_zeros]; rfl

theorem test_illFormed_cmdReserved : (Instr.cmdReserved 0x07 []).wellFormed = false := by decide

theorem test_illFormed_tagReserved :
    (Instr.tagReserved [] 0x01).wellFormed = false ∧ (Instr.tagReserved [] 0x02).wellFormed = false ∧
    (Instr.tagReserved [] 0x03).wellFormed = false := by decide

/-- The fields of V2 row 9, and the same with one field wrong at a time: size out of the format's range, size,
the two ack bytes, mmnn, checksum. -/
theorem test_illFormed_frame :
    (Instr.frame 7 0x01 0x01 2 [0x04] 0xAB).wellFormed = true ∧
    (Instr.frame 0x20000 0x01 0x01 2 [0x04] 0xAB).encodable = false ∧
    (Instr.frame 8 0x01 0x01 2 [0x04] 0xAB).wellFormed = false ∧
    (Instr.frame 7 0x01 0x00 2 [0x04] 0xAB).wellFormed = false ∧
    (Instr.frame 7 0x01 0x01 3 [0x04] 0xAB).wellFormed = false ∧
    (Instr.frame 7 0x01 0x01 2 [0x04] 0xAC).wellFormed = false := by decide

/-- More payload bytes than `N_MAX`. -/
theorem test_illFormed_frame_long (msgSize : BitVec 32) (a1 a2 ck : Byte) (mmnn : BitVec 16) :
    (Instr.frame msgSize a1 a2 mmnn (List.replicate 65535 0x00) ck).contract = false := by
  simp only [Instr.contract, frameFieldsOk, zeros_length]; rfl

/-! ### Every constructor's decoding from bytes written out (R91, R97 to R102; programs P1 and P2) -/

theorem test_decode_buildPayload :
    decode (.command [0x00, 0x02, 0x01, 0xFF, 0x05]) = .ok (.buildPayload 0x02 [0x01, 0xFF, 0x05]) := rfl

theorem test_decode_computeFrame :
    decode (.command [0x01, 0x01, 0x02, 0x01, 0x05]) = .ok (.computeFrame 0x01 [0x02, 0x01, 0x05]) := rfl

theorem test_decode_appendTag : decode (.command [0x02, 0xAA, 0xBB, 0x03]) = .ok (.appendTag [0xAA, 0xBB] 0x03) := rfl

theorem test_decode_sendHead : decode (.command [0x03, 0xA4, 0x03]) = .ok (.sendHead [0xA4, 0x03]) := rfl

theorem test_decode_sendBottom : decode (.command [0x04, 0x01, 0x02]) = .ok (.sendBottom [0x01, 0x02]) := rfl

theorem test_decode_sendPoint : decode (.command [0x05, 0x01]) = .ok (.sendPoint [0x01]) := rfl

theorem test_decode_waitPending : decode (.command [0x06]) = .ok .waitPending := rfl

theorem test_decode_shutdown : decode (.command [0x07]) = .ok .shutdown := rfl

theorem test_decode_cmdReserved :
    decode (.command [0x08]) = .ok (.cmdReserved 0x08 []) ∧
    decode (.command [0xFF, 0x01]) = .ok (.cmdReserved 0xFF [0x01]) := ⟨rfl, rfl⟩

theorem test_decode_sendCmd : decode (.pseudo 0x02 [0x01] 0x01 0x03) = .ok (.sendCmd 0x02 [0x01] 0x01 0x03) := rfl

theorem test_decode_kindSendToHead : decode (.message 0#2 [0x11]) = .ok (.kindSendToHead [0x11]) := rfl

theorem test_decode_kindSendToBottom : decode (.message 1#2 [0x22]) = .ok (.kindSendToBottom [0x22]) := rfl

theorem test_decode_kindSendToPoint : decode (.message 2#2 [0xAA, 0x01]) = .ok (.kindSendToPoint [0xAA, 0x01]) := rfl

theorem test_decode_kindReserved : decode (.message 3#2 []) = .ok (.kindReserved []) := rfl

theorem test_decode_tagHead : decode (.tagged [0xAA, 0x01]) = .ok (.tagHead [0xAA]) := rfl

theorem test_decode_tagBottom : decode (.tagged [0xAA, 0x02]) = .ok (.tagBottom [0xAA]) := rfl

theorem test_decode_tagBroadcast : decode (.tagged [0xAA, 0x03]) = .ok (.tagBroadcast [0xAA]) := rfl

theorem test_decode_tagReserved :
    decode (.tagged [0xAA, 0x00]) = .ok (.tagReserved [0xAA] 0x00) ∧
    decode (.tagged [0xAA, 0x04]) = .ok (.tagReserved [0xAA] 0x04) := ⟨rfl, rfl⟩

/-- V2 row 4: `ack` is 0 and the size is 0B. -/
theorem test_decode_frame :
    decode (.frame [0xA4, 0x03, 0, 0, 0, 0, 0, 0x0B, 0, 0, 0, 0, 0, 0, 0, 0, 0xFF, 0xA5, 0, 0, 0x06,
      0x02, 0x01, 0x00, 0x00, 0x05, 0xB2]) =
      .ok (.frame 0x0B 0x00 0x00 0x06 [0x02, 0x01, 0x00, 0x00, 0x05] 0xB2) := rfl

/-- A byte the mask covers is wrong, or the checksum byte is missing. -/
theorem test_decode_frame_rejected :
    decode (.frame [0xA4, 0x03, 0, 0, 0, 2, 0, 0x06, 1, 0, 0, 0, 0, 0, 0, 0, 0xFF, 0xA5, 1, 0, 1, 0xA6]) =
      .error .notAFrame ∧
    decode (.frame [0xA4, 0x03, 0, 0, 0, 0, 0, 0x06, 1, 0, 0, 0, 0, 0, 0, 0, 0xFF, 0xA5, 1, 0, 1]) =
      .error .notAFrame := ⟨rfl, rfl⟩

theorem test_decode_rbuf : decode (.routed [0xAA, 0xBB, 0x02]) = .ok (.rbuf [0xAA, 0xBB] 0x02) := rfl

theorem test_decode_cmdPayload :
    decode (.payload [0x10, 0x80, 0xFF]) = .ok (.cmdPayload 0x10 [0x80, 0xFF]) := rfl

theorem test_decode_missing_operands :
    decode (.command []) = .error .noCommandByte ∧ decode (.command [0x00]) = .error .missingOperand ∧
    decode (.command [0x06, 0x00]) = .error .extraOperand ∧ decode (.tagged []) = .error .noTagByte := ⟨rfl, rfl, rfl, rfl⟩

theorem test_decodeTableWord :
    decodeTableWord 8 0x03 = some (.sendHead []) ∧ decodeTableWord 8 0x09 = some (.cmdReserved 0x09 []) ∧
    decodeTableWord 16 0x0405 = some (.sendPoint [0x04]) := ⟨rfl, rfl, rfl⟩

/-! ### The serializer (95_test_vectors.md S2, S4, V1, V2, V3) -/

/-- S2, and V1 row 4: negatives other than -1 are kept. -/
theorem test_buildPayload_vectors :
    after (exec (.buildPayload 0x02 [0x01, 0xFF, 0x05]) fresh) State.responses = some [⟨0, [0x02, 0x01, 0x05]⟩] ∧
    after (exec (.buildPayload 0x10 [0x80, 0x7F, 0xFE, 0xFF, 0xFF, 0x00]) fresh) State.responses =
      some [⟨0, [0x10, 0x80, 0x7F, 0xFE, 0x00]⟩] := by decide

/-- V1 row 6, under both values of `FILTER_COVERS_MODE`. -/
theorem test_buildPayload_mode_sentinel :
    buildPayloadWith true 0xFF [0x01, 0x02] = [0x01, 0x02] ∧
    buildPayloadWith false 0xFF [0x01, 0x02] = [0xFF, 0x01, 0x02] := by decide

/-- S4: the whole frame. -/
theorem test_computeFrame_S4 :
    after (exec (.computeFrame 0x01 [0x02, 0x01, 0x00, 0x00, 0x05]) fresh) State.responses =
      some [⟨0, [0xA4, 0x03, 0x00, 0x00, 0x00, 0x00, 0x00, 0x0B, 0x01, 0x00, 0x00, 0x00, 0x00, 0x00, 0x00, 0x00,
        0xFF, 0xA5, 0x01, 0x00, 0x06, 0x02, 0x01, 0x00, 0x00, 0x05, 0xB3]⟩] := by decide

/-- V2 rows 2, 5, 6, 10, 11, 12: the checksums. -/
theorem test_computeFrame_checksums :
    checksum 0x01 [] = 0xA6 ∧ checksum 0xFF [0xFE, 0xFE, 0xFE] = 0xA1 ∧ checksum 0x01 [0x7F, 0x80, 0x01] = 0xA9 ∧
    checksum 0x00 [0x03, 0x55] = 0xFF ∧ checksum 0x01 [0x59] = 0x00 ∧ checksum 0x01 [0x5A] = 0x01 := by decide

/-- The datapath on S4, and V2 row 6 (R137). -/
theorem test_referenceChecksum :
    referenceChecksum 0x01 [0x02, 0x01, 0x00, 0x00, 0x05] = 0xB3 ∧ referenceChecksum 0x01 [0x7F, 0x80, 0x01] = 0xA9 := by
  decide

/-- V3 rows 3 and 4. -/
theorem test_appendTag_vectors :
    after (exec (.appendTag [] 0x01) fresh) State.responses = some [⟨0, [0x01]⟩] ∧
    after (exec (.appendTag [0xAA, 0xBB] 0x00) fresh) State.responses = some [⟨0, [0xAA, 0xBB, 0x00]⟩] := by decide

/-- V2 row 9 as a layout row, and with a wrong checksum. -/
theorem test_frame_row :
    after (exec (.frame 7 0x01 0x01 2 [0x04] 0xAB) fresh) State.responses =
      some [⟨0, [0xA4, 0x03, 0x00, 0x00, 0x00, 0x00, 0x00, 0x07, 0x01, 0x00, 0x00, 0x00, 0x00, 0x00, 0x00, 0x00,
        0xFF, 0xA5, 0x01, 0x00, 0x02, 0x04, 0xAB]⟩] ∧
    refusal (exec (.frame 7 0x01 0x01 2 [0x04] 0xAC) fresh) = some .illFormedFrame := by decide

theorem test_rbuf_row : after (exec (.rbuf [0xAA] 0x02) fresh) State.responses = some [⟨0, [0xAA, 0x02]⟩] := by decide

/-- V1 row 8. -/
theorem test_cmdPayload_row :
    after (exec (.cmdPayload 0x7F [0xFF, 0x7F, 0xFF]) fresh) State.responses = some [⟨0, [0x7F, 0x7F]⟩] := by decide

/-! ### The mux commands (V4, V5, V6) -/

theorem test_sendHead_pushes :
    after (exec (.sendHead [0x01, 0x02]) fresh) State.q = some [⟨.sendToHead, [0x01, 0x02]⟩] := by decide

theorem test_sendBottom_pushes_at_the_tail :
    after (exec (.sendBottom []) { fresh with q := [⟨.sendToHead, [0x01]⟩] }) State.q =
      some [⟨.sendToHead, [0x01]⟩, ⟨.sendToBottom, []⟩] := by decide

theorem test_sendPoint_keeps_the_bad_tag :
    after (exec (.sendPoint [0xAA, 0x07]) fresh) State.q = some [⟨.sendToPoint, [0xAA, 0x07]⟩] := by decide

/-- V4 row 4 and V5 row 5. -/
theorem test_halted_refuses :
    refusal (exec (.sendHead []) haltedState) = some .halted ∧ refusal (exec .waitPending haltedState) = some .halted ∧
    refusal (exec .shutdown haltedState) = some .halted := by decide

/-- V5 rows 2 and 3: completion takes the item off the producer's stream, waiting does not. -/
theorem test_waitPending :
    after (exec .waitPending { fresh with w := .busy ⟨.head, [0x01]⟩ [], streams := [[.command [0x06]]] })
      State.streams = some [[]] ∧
    after (exec .waitPending { fresh with q := [aMessage], streams := [[.command [0x06]]] })
      (fun s => (s.streams, s.suspended)) = some ([[.command [0x06]]], [0]) := by decide

theorem test_shutdown_begins :
    after (exec .shutdown fresh) (fun s => (s.running, s.stopping, s.halted)) = some (false, some 0, false) := by decide

/-- SENDCMD is P1 lines 1 to 4: F1, then the tag 03. -/
theorem test_sendCmd_P1 :
    after (exec (.sendCmd 0x02 [0x01, 0xFF, 0x05] 0x01 0x03) fresh) State.q =
      some [⟨.sendToPoint, [0xA4, 0x03, 0x00, 0x00, 0x00, 0x00, 0x00, 0x09, 0x01, 0x00, 0x00, 0x00, 0x00, 0x00, 0x00,
        0x00, 0xFF, 0xA5, 0x01, 0x00, 0x04, 0x02, 0x01, 0x05, 0xB1, 0x03]⟩] := by decide

theorem test_cmdReserved_refused : refusal (exec (.cmdReserved 0x08 []) fresh) = some (.reservedCommand 0x08) := by decide

/-! ### Routing (V7) and the dispatcher -/

/-- V7 rows 1, 2, 5, 8, 9, 10, 11. -/
theorem test_route_vectors :
    route ⟨.sendToHead, [0xAA, 0xBB, 0x03]⟩ = [⟨.head, [0xAA, 0xBB, 0x03]⟩] ∧
    route ⟨.sendToBottom, []⟩ = [⟨.bottom, []⟩] ∧
    route ⟨.sendToPoint, [0xAA, 0xBB, 0x03]⟩ = [⟨.head, [0xAA, 0xBB]⟩, ⟨.bottom, [0xAA, 0xBB]⟩] ∧
    route ⟨.sendToPoint, [0xAA, 0xBB, 0x00]⟩ = [] ∧ route ⟨.sendToPoint, [0xAA, 0xBB, 0x04]⟩ = [] ∧
    route ⟨.sendToPoint, [0x03]⟩ = [⟨.head, []⟩, ⟨.bottom, []⟩] ∧ route ⟨.sendToPoint, []⟩ = [] := by decide

theorem test_kindSendToHead : after (exec (.kindSendToHead [0x03]) fresh) State.w = some (.busy ⟨.head, [0x03]⟩ []) := by
  decide

theorem test_kindSendToBottom :
    after (exec (.kindSendToBottom [0x03]) fresh) State.w = some (.busy ⟨.bottom, [0x03]⟩ []) := by decide

theorem test_kindSendToPoint :
    after (exec (.kindSendToPoint [0xAA, 0x02]) fresh) State.w = some (.busy ⟨.bottom, [0xAA]⟩ []) := by decide

theorem test_kindReserved_refused : refusal (exec (.kindReserved []) fresh) = some .reservedKind := by decide

theorem test_tagHead : after (exec (.tagHead [0xAA]) fresh) State.w = some (.busy ⟨.head, [0xAA]⟩ []) := by decide

theorem test_tagBottom : after (exec (.tagBottom [0xAA]) fresh) State.w = some (.busy ⟨.bottom, [0xAA]⟩ []) := by decide

theorem test_tagBroadcast :
    after (exec (.tagBroadcast [0xAA]) fresh) State.w = some (.busy ⟨.head, [0xAA]⟩ [⟨.bottom, [0xAA]⟩]) := by decide

theorem test_tagReserved : after (exec (.tagReserved [0xAA] 0x04) fresh) State.w = some .idle := by decide

/-- R201's worked example. -/
theorem test_dequeue :
    after (dispatcherStep { fresh with q := [⟨.sendToHead, [0x0F]⟩, aMessage] }) (fun s => (s.q, s.w)) =
      some ([aMessage], .busy ⟨.head, [0x0F]⟩ []) := by decide

/-! ### Write attempts (V9, on the buffer AA BB) -/

/-- Rows 2, 5, 6: a success clears the count, an error counts although all bytes moved, a partial transfer is a
success. -/
theorem test_attempt_connected :
    ((headLinked 3).writeAttempt .head [0xAA, 0xBB] (answers none 0 2 none)).head.failCount = 0 ∧
    ((headLinked 3).writeAttempt .head [0xAA, 0xBB] (answers none (-7) 2 none)).head.failCount = 4 ∧
    ((headLinked 3).writeAttempt .head [0xAA, 0xBB] (answers none 0 1 none)).trace =
      [.wrote .head [0xAA, 0xBB] 0 1, .attempted .head [0xAA, 0xBB] .ok] := by decide

/-- Rows 8 and 9: the lazy open. -/
theorem test_attempt_lazy_open :
    ((headAbsent 0).writeAttempt .head [0xAA, 0xBB] (answers (some someLink) 0 2 none)).trace =
      [.opened .head (some someLink), .wrote .head [0xAA, 0xBB] 0 2, .attempted .head [0xAA, 0xBB] .ok] ∧
    ((headAbsent 0).writeAttempt .head [0xAA, 0xBB] (answers none 0 2 none)).trace =
      [.opened .head none, .attempted .head [0xAA, 0xBB] .fail] := by decide

/-- Rows 11 and 13: the reconnect cycle of a Connected destination, and of an absent one. -/
theorem test_attempt_reconnect :
    ((headLinked 9).writeAttempt .head [0xAA, 0xBB] (answers none (-1) 0 (some otherLink))).trace =
      [.wrote .head [0xAA, 0xBB] (-1) 0, .attempted .head [0xAA, 0xBB] .fail, .closed .head,
        .opened .head (some otherLink)] ∧
    ((headAbsent 9).writeAttempt .head [0xAA, 0xBB] (answers none 0 0 none)).trace =
      [.opened .head none, .attempted .head [0xAA, 0xBB] .fail, .opened .head none] ∧
    ((headLinked 9).writeAttempt .head [0xAA, 0xBB] (answers none (-1) 0 (some otherLink))).head =
      { link := some otherLink, failCount := 10 } := by decide

/-- Rows 16 and 17: no cycle at 11, and an empty buffer fails. -/
theorem test_attempt_eleventh_and_empty :
    ((headLinked 10).writeAttempt .head [0xAA, 0xBB] (answers none (-1) 0 none)).head =
      { link := some someLink, failCount := 11 } ∧
    ((headLinked 0).writeAttempt .head [] (answers none 0 5 none)).trace =
      [.wrote .head [] 0 0, .attempted .head [] .fail] := by decide

/-! ### Witnesses: what meets the hypotheses of the statements -/

theorem witness_DecodeAfterEncode :
    (Instr.cmdReserved 0x08 []).encodable = true ∧ (Instr.tagReserved [] 0x00).encodable = true ∧
    (Instr.tagReserved [] 0x04).encodable = true ∧ (Instr.tagReserved [] 0xFF).encodable = true ∧
    (Instr.frame 0x1FFFF 0x00 0xFF 0xFFFF [] 0x00).encodable = true := by decide

theorem witness_EncodeAfterDecode : decode (.routed [0x02]) = .ok (.rbuf [] 0x02) := rfl

theorem witness_CommandBytesFollowTheTable : 8 ≤ (0x08 : Byte).toNat ∧ 8 ≤ (0xFF : Byte).toNat := by decide

theorem witness_BuildPayloadLengthAndIdempotence :
    buildPayload 0xFF [0xFF, 0x01] = 0x01 :: [] ∧ (0xFE : Byte) ≠ 0xFF := by decide

/-- For ComputeFrameAnswersTheFrame, FrameFieldsAreBigEndian, DatapathComputesTheChecksum,
ComputeFrameIsTheUniqueWellFormedFrame and LayoutRowsAnswerTheirBytes: both ends of the range. -/
theorem witness_payload_lengths :
    ([] : Bytes).length ≤ 65534 ∧ (List.replicate 65534 (0x00 : Byte)).length ≤ 65534 := by
  rw [zeros_length]; decide

theorem witness_ComputeFrameIsTheUniqueWellFormedFrame : frameWellFormed 0x01 (frameBytes 0x01 [0x04]) = true := by decide

theorem witness_ComputeFrameIsInjective : frameBytes 0x01 [0x04] = frameBytes 0x01 [0x04] := rfl

theorem witness_LongPayloadIsRefused :
    65534 < (List.replicate 65535 (0x00 : Byte)).length ∧
    65534 < (buildPayload 0x00 (List.replicate 65534 0x00)).length := by
  rw [zeros_length, buildPayload_zeros]; decide

theorem witness_LayoutRowsAnswerTheirBytes : frameFieldsOk 7 0x01 0x00 2 [0x04] 0xAB = false := by decide

/-- For SendCommandsPushOneMessage and SendCmdIsItsExpansion: the unbounded queue, and the last free place of a
finite one. -/
theorem witness_SendCommandsPushOneMessage :
    fresh.halted = false ∧ fresh.hasRoom = true ∧
    ({ fresh with params := ⟨some 1, true⟩ } : State).hasRoom = true := by decide

theorem witness_SendCmdIsItsExpansion : (buildPayload 0x02 [0x01, 0xFF, 0x05]).length ≤ 65534 := by decide

/-- The last payload that SENDCMD accepts. -/
theorem witness_SendCmdIsItsExpansion_longest : (buildPayload 0x00 (List.replicate 65533 0x00)).length = 65534 :=
  buildPayload_zeros 65533

theorem witness_FullQueueMakesTheProducerWait :
    fresh.params.queueDepth = none ∧
    (∃ s : State, s.params.queueDepth = some 1 ∧ 1 ≤ s.q.length ∧ s.halted = false) :=
  ⟨rfl, { fresh with q := [aMessage], params := ⟨some 1, true⟩ }, rfl, by decide, rfl⟩

/-- A producer that issues now, and one that was waiting at the halt, with an empty and with a non-empty queue. -/
theorem witness_HaltedBlockRefusesMuxCommands :
    haltedState.halted = true ∧ haltedState.caller ∉ haltedState.suspended ∧
    (buildPayload 0x02 []).length ≤ 65534 ∧ ([] : Bytes).length ≤ 65534 ∧
    (∃ s : State, s.halted = true ∧ s.caller ∈ s.suspended ∧ s.q = []) ∧
    (∃ s : State, s.halted = true ∧ s.caller ∈ s.suspended ∧ s.q ≠ []) :=
  ⟨rfl, by decide, by decide, by decide, ⟨{ haltedState with suspended := [0] }, by decide⟩,
    { haltedState with suspended := [0], q := [aMessage] }, by decide⟩

theorem witness_WaitPendingCompletesOnTheEmptyQueue :
    fresh.halted = false ∧ fresh.q = [] ∧ ({ fresh with q := [aMessage] } : State).q ≠ [] := by decide

theorem witness_ShutdownClearsTheRunningFlag : fresh.halted = false ∧ fresh.stopping = none := by decide

theorem witness_ShutdownWaitsForTheDispatcher :
    (∃ s : State, s.halted = false ∧ s.stopping = some s.caller ∧ s.w ≠ .exited) ∧
    (∃ s : State, s.halted = false ∧ s.stopping = some 1 ∧ 1 ≠ s.caller) :=
  ⟨⟨{ fresh with stopping := some 0 }, by decide⟩, { fresh with stopping := some 1 }, by decide⟩

theorem witness_ShutdownClosesBothAndHalts :
    ∃ s : State, s.halted = false ∧ s.stopping = some s.caller ∧ s.w = .exited ∧ s.connected .head = true :=
  ⟨{ headLinked 3 with stopping := some 0, w := .exited }, by decide⟩

/-- For NamedKindsRouteTheirWholeData, PointMessageIsRoutedByItsLastByte, TagValuesChooseTheDestinations and
BroadcastAttemptsHeadThenBottom. -/
theorem witness_idle : fresh.w = .idle := rfl

theorem witness_NoRouteIsTakenUpOutsideIdle :
    haltedState.w ≠ .idle ∧ ({ fresh with w := .busy ⟨.head, []⟩ [] } : State).w ≠ .idle := by decide

/-- DEQUEUE is enabled while running without draining, and after the stop with draining. -/
theorem witness_DequeueTakesTheOldestMessage :
    (∃ s : State, s.w = .idle ∧ s.q = [aMessage] ∧ s.running = true ∧ s.params.drainOnShutdown = false) ∧
    (∃ s : State, s.w = .idle ∧ s.q = [aMessage] ∧ s.running = false ∧ s.params.drainOnShutdown = true) :=
  ⟨⟨{ fresh with q := [aMessage], params := ⟨none, false⟩ }, by decide⟩,
    { fresh with q := [aMessage], running := false }, by decide⟩

theorem witness_AttemptMakesTheNextPendingWrite :
    ∃ s : State, s.w = .busy ⟨.head, [0x01]⟩ [⟨.bottom, [0x01]⟩] :=
  ⟨{ fresh with w := .busy ⟨.head, [0x01]⟩ [⟨.bottom, [0x01]⟩] }, rfl⟩

theorem witness_DispatcherExitsOrBlocks :
    (∃ s : State, s.w = .idle ∧ s.running = false ∧ s.q = [] ∧ s.params.drainOnShutdown = true) ∧
    (∃ s : State, s.w = .idle ∧ s.running = false ∧ s.q ≠ [] ∧ s.params.drainOnShutdown = false) ∧
    (fresh.w = .idle ∧ fresh.q = [] ∧ fresh.running = true) ∧ haltedState.w = .exited :=
  ⟨⟨{ fresh with running := false }, by decide⟩,
    ⟨{ fresh with running := false, q := [aMessage], params := ⟨none, false⟩ }, by decide⟩, by decide, rfl⟩

/-- One byte moved of two is enough (R211). -/
theorem witness_SuccessfulWriteClearsTheCount :
    (headLinked 3).connected .head = true ∧ (answers none 0 1 none).err = 0 ∧ 0 < (answers none 0 1 none).moved ∧
    ([0xAA, 0xBB] : Bytes) ≠ [] := by decide

/-- An error with all bytes moved, no error with none moved; counts 8 and 10 around the cycle. -/
theorem witness_FailedWriteCountsOnce :
    (headLinked 8).connected .head = true ∧ (answers none (-7) 2 none).err ≠ 0 ∧
    min (answers none 0 0 none).moved 2 = 0 ∧ (((headLinked 8).ep .head).failCount + 1) % 10 ≠ 0 ∧
    (((headLinked 10).ep .head).failCount + 1) % 10 ≠ 0 := by decide

theorem witness_TenthFailureReconnects :
    (headLinked 9).connected .head = true ∧ (answers none (-1) 0 none).err ≠ 0 ∧
    (((headLinked 9).ep .head).failCount + 1) % 10 = 0 ∧ (((headLinked 19).ep .head).failCount + 1) % 10 = 0 := by decide

/-- Both branches of the statement: counts 0 and 9. -/
theorem witness_AbsentDeviceFailsWithoutAWrite :
    (headAbsent 0).connected .head = false ∧ (headAbsent 9).connected .head = false ∧
    (answers none 0 0 none).lazy = none ∧ (((headAbsent 9).ep .head).failCount + 1) % 10 = 0 ∧
    (((headAbsent 0).ep .head).failCount + 1) % 10 ≠ 0 := by decide

theorem witness_LazyOpenThenAttempt :
    (headAbsent 9).connected .head = false ∧ (answers (some someLink) 0 2 none).lazy = some someLink := by decide

theorem witness_OpenAndCloseKeepTheCount :
    (headAbsent 3).connected .head = false ∧ (headLinked 3).connected .head = true := by decide

/-- Ten failing writes, after them a success on the reopened device. -/
theorem witness_TenFailuresMakeOneReconnect :
    let xs : List (Bytes × Draws) := List.replicate 10 ([0xAA], answers none (-1) 0 (some otherLink))
    (headLinked 0).connected .head = true ∧ ((headLinked 0).ep .head).failCount % 10 = 0 ∧ xs.length = 10 ∧
    (∀ x ∈ xs, x.2.err ≠ 0 ∨ min x.2.moved x.1.length = 0) ∧
    (runAttempts .head xs (headLinked 0)).connected .head = true ∧ (answers none 0 1 none).err = 0 ∧
    0 < (answers none 0 1 none).moved ∧ ([0xAA] : Bytes) ≠ [] := by decide

/-- A state in which a producer presents this item. -/
def presenting (it : Item) : State := { fresh with streams := [[it]] }

/-- A producer with a command or the pseudo-operation, a command word, and a producer with nothing to issue. -/
theorem witness_StepRunsTheIssuedInstruction :
    (∃ s : State, s.turn = .producer ∧ (s.streams.getD s.caller []).head? = some (.command [0x06]) ∧
      decode (.command [0x06]) = .ok .waitPending ∧ Instr.waitPending.format = .cmd) ∧
    (∃ s : State, s.turn = .producer ∧ (s.streams.getD s.caller []).head? = some (.pseudo 0x02 [] 0x01 0x03) ∧
      decode (.pseudo 0x02 [] 0x01 0x03) = .ok (.sendCmd 0x02 [] 0x01 0x03) ∧
      (Instr.sendCmd 0x02 [] 0x01 0x03).format = .pseudo) ∧
    (8 ≠ 168 ∧ decodeTableWord 8 0x07 = some .shutdown) ∧
    (fresh.turn = .producer ∧ (fresh.streams.getD fresh.caller []).head? = none) :=
  ⟨⟨presenting (.command [0x06]), rfl, rfl, rfl, rfl⟩,
    ⟨presenting (.pseudo 0x02 [] 0x01 0x03), rfl, rfl, rfl, rfl⟩, ⟨by decide, rfl⟩, rfl, rfl⟩

/-- An item that no user can issue, and an empty command transaction. -/
theorem witness_StepRefusesWhatNoUserCanIssue :
    (∃ s : State, s.turn = .producer ∧ (s.streams.getD s.caller []).head? = some (.routed [0x02]) ∧
      (Item.routed [0x02]).format ≠ .cmd ∧ (Item.routed [0x02]).format ≠ .pseudo) ∧
    (∃ s : State, s.turn = .producer ∧ (s.streams.getD s.caller []).head? = some (.command []) ∧
      (Item.command []).format = .cmd ∧ decode (.command []) = .error .noCommandByte) :=
  ⟨⟨presenting (.routed [0x02]), rfl, rfl, by decide, by decide⟩, presenting (.command []), rfl, rfl, rfl, rfl⟩

/-- The layouts and the dispatcher's formats are nobody's to issue (R103, R108). -/
theorem test_step_refuses_other_formats :
    refusal (step (presenting (.frame []))) = some .notIssuable ∧
    refusal (step (presenting (.routed [0x01]))) = some .notIssuable ∧
    refusal (step (presenting (.payload [0x01]))) = some .notIssuable ∧
    refusal (step (presenting (.message 0#2 []))) = some .notIssuable ∧
    refusal (step (presenting (.tagged [0x01]))) = some .notIssuable := by decide

/-- The dispatcher's turn from Idle with a message, and from Busy. -/
theorem witness_StepRunsTheDequeuedMessage :
    (∃ s : State, s.turn = .dispatcher ∧ s.w = .idle ∧ s.q = [aMessage] ∧ s.running = true ∧
      decode (.message (kindCode aMessage.kind) aMessage.data) = .ok (.kindSendToBottom [0x01])) ∧
    (∃ s : State, s.turn = .dispatcher ∧ s.w = .busy ⟨.head, [0xAA]⟩ []) :=
  ⟨⟨{ fresh with turn := .dispatcher, q := [aMessage] }, rfl, rfl, rfl, rfl, rfl⟩,
    { fresh with turn := .dispatcher, w := .busy ⟨.head, [0xAA]⟩ [] }, rfl, rfl⟩

theorem fresh_inv : fresh.Inv where
  phase_legal := rfl
  halted_stops := by decide
  stopping_clears := by decide
  exited_clears := by decide

theorem haltedState_inv : haltedState.Inv where
  phase_legal := rfl
  halted_stops := by decide
  stopping_clears := by decide
  exited_clears := by decide

/-- For StepKeepsTheStateInvariants, RunningNeverReturnsAndTraceGrows, QueueMovesByOnePushOrOnePop and
LedgerOnlyGrowsAtItsEnd: a step of either agent from a state that meets the invariant. -/
theorem witness_step :
    fresh.Inv ∧ (∃ t, fresh.turn = .producer ∧ step fresh = .next t) ∧
    (∃ s t : State, s.turn = .dispatcher ∧ s.w = .idle ∧ s.q = [aMessage] ∧ step s = .next t) :=
  ⟨fresh_inv, ⟨_, rfl, rfl⟩, { fresh with turn := .dispatcher, q := [aMessage] }, _, rfl, rfl, rfl, rfl⟩

/-- For RunningNeverReturnsAndTraceGrows and ShutdownIsTerminal. -/
theorem witness_ShutdownIsTerminal :
    haltedState.Inv ∧ haltedState.halted = true ∧ haltedState.running = false ∧ ∃ t, step haltedState = .next t :=
  ⟨haltedState_inv, rfl, rfl, _, rfl⟩

/-- For StepKeepsThePortGrammar, StepKeepsTheFailureCount and StepKeepsWritesJudged: a state in the middle of a
run, whose next step is an attempt. -/
def midRun : State :=
  { headLinked 1 with
    turn := .dispatcher
    w := .busy ⟨.head, [0xAA]⟩ []
    trace := [.opened .head (some someLink), .wrote .head [0x01] (-1) 1, .attempted .head [0x01] .fail] }

theorem witness_StepKeepsTheTraceInvariants :
    (∀ d, portReplay d midRun.trace = some (midRun.ep d).link) ∧
    (∀ d, countReplay d midRun.trace = (midRun.ep d).failCount) ∧ writesJudged midRun.trace = true ∧
    ∃ t, step midRun = .next t :=
  ⟨fun d => by cases d <;> decide, fun d => by cases d <;> decide, by decide, _, rfl⟩

/-- A trace that breaks each of the three: a close without an open, and a write with the wrong verdict. -/
theorem test_trace_invariants_refuse :
    portReplay .head [.closed .head] = none ∧
    writesJudged [.wrote .head [0x01] 0 1, .attempted .head [0x01] .fail] = false ∧
    countReplay .head [.attempted .head [] .fail, .attempted .bottom [] .ok] = 1 := by decide

theorem witness_DispatcherDrainsTheQueue : fresh.running = true ∧ fresh.w ≠ .exited := by decide

/-- Both clauses, and each alternative of the second. -/
theorem witness_AgentsTouchOnlyWhatTheyOwn :
    (∃ s t : State, s.turn = .producer ∧ s.stopping = some s.caller ∧ s.w = .exited ∧ s.halted = false ∧
      s.streams = [[.command [0x07]]] ∧ step s = .next t) ∧
    (∃ t, midRun.turn = .dispatcher ∧ step midRun = .next t) :=
  ⟨⟨{ fresh with running := false, stopping := some 0, w := .exited, streams := [[.command [0x07]]] },
    _, rfl, rfl, rfl, rfl, rfl, rfl⟩, _, rfl, rfl⟩

theorem witness_ExitedDispatcherLeavesTheQueue :
    ∃ s t : State, s.w = .exited ∧ s.q ≠ [] ∧ step s = .next t :=
  ⟨{ fresh with running := false, w := .exited, q := [aMessage] }, _, rfl, by decide, rfl⟩

end Sys2Proof.Tests
end

section
/-! The statements about scope: what a turn runs and what it refuses, where SHUTDOWN and the dispatcher wait, and
what a step appends to the port trace. -/

namespace Sys2Proof.Machine

/-! ### A producer's turn -/

theorem agentStep_producer {s : State} (h : s.turn = .producer) : agentStep s = producerStep s := by
  simp [agentStep, h]

/-- A producer with nothing to issue moves only the schedule. -/
theorem step_of_nothing_issued {s : State} (hturn : s.turn = .producer) (hnone : s.fetchItem = none) :
    step s = .next s.reschedule := by
  simp [step, agentStep_producer hturn, producerStep, hnone]

/-- An item that a user can issue is decoded and run (R108). -/
theorem step_of_issuable {s : State} {it : Item} (hturn : s.turn = .producer) (hfetch : s.fetchItem = some it)
    (hissuable : issuable it = true) : step s = onNext State.reschedule (runItem it s) := by
  simp [step, agentStep_producer hturn, producerStep, hfetch, hissuable]

/-- An item of any other format is refused before it is decoded (R103, R108). -/
theorem step_of_other_format {s : State} {it : Item} (hturn : s.turn = .producer) (hfetch : s.fetchItem = some it)
    (hcmd : it.format ≠ .cmd) (hpseudo : it.format ≠ .pseudo) : step s = .refused .notIssuable := by
  have hissuable : issuable it = false := by
    rw [← Bool.not_eq_true, issuable_iff]
    exact not_or.mpr ⟨hcmd, hpseudo⟩
  simp [step, agentStep_producer hturn, producerStep, hfetch, hissuable]

theorem runItem_of_decode {it : Item} {i : Instr} (hdecode : decode it = .ok i) (s : State) :
    runItem it s = exec i s := by
  simp [runItem, hdecode]

theorem runItem_of_decode_error {it : Item} {e : DecodeError} (hdecode : decode it = .error e) (s : State) :
    runItem it s = .refused (.undecodable e) := by
  simp [runItem, hdecode]

/-- A command transaction that decodes to no operation is refused with the decoder's reason. -/
theorem step_of_undecodable {s : State} {it : Item} {e : DecodeError} (hturn : s.turn = .producer)
    (hfetch : s.fetchItem = some it) (hcmd : it.format = .cmd) (hdecode : decode it = .error e) :
    step s = .refused (.undecodable e) := by
  rw [step_of_issuable hturn hfetch ((issuable_iff it).mpr (.inl hcmd)), runItem_of_decode_error hdecode,
    onNext_refused]

/-- A producer's turn executes the command or pseudo-operation its next item decodes to. -/
theorem step_of_issued {s : State} {it : Item} {i : Instr} (hturn : s.turn = .producer)
    (hfetch : s.fetchItem = some it) (hformat : i.format = .cmd ∨ i.format = .pseudo) (hdecode : decode it = .ok i) :
    step s = onNext State.reschedule (exec i s) := by
  have hissuable : issuable it = true := (issuable_iff it).mpr (decode_format hdecode ▸ hformat)
  rw [step_of_issuable hturn hfetch hissuable, runItem_of_decode hdecode]

/-! ### A word placed where the step fetches it -/

@[simp] theorem State.withIssuedItem_fetchItem (s : State) (it : Item) :
    (s.withIssuedItem it).fetchItem = some it := by
  simp [State.fetchItem, State.withIssuedItem]

theorem State.withFetchWord_fetchItem (s : State) (nbits w : Nat) :
    (s.withFetchWord nbits w).fetchItem = some (tableItem nbits w) :=
  s.withIssuedItem_fetchItem _

theorem tableItem_format_frame (w : Nat) : (tableItem 168 w).format = .frame := rfl

theorem tableItem_format_cmd {nbits : Nat} (h : nbits ≠ 168) (w : Nat) : (tableItem nbits w).format = .cmd := by
  simp [tableItem, h, Item.format]

theorem decodeTableWord_eq_some {nbits w : Nat} {i : Instr} :
    decodeTableWord nbits w = some i ↔ decode (tableItem nbits w) = .ok i := by
  cases h : decode (tableItem nbits w) <;> simp [decodeTableWord, h]

/-! ### SHUTDOWN while it is in progress -/

theorem exec_shutdown (s : State) : exec .shutdown s = execShutdown s := rfl

/-- Step 2 of R175: the owner of the SHUTDOWN waits for the dispatcher's exit. -/
theorem execShutdown_waits {s : State} (live : s.halted = false) (mine : s.stopping = some s.caller)
    (notJoined : s.w ≠ .exited) : execShutdown s = .next s.suspend := by
  cases hw : s.w with
  | idle => simp [execShutdown, live, mine, hw]
  | busy now rest => simp [execShutdown, live, mine, hw]
  | exited => exact absurd hw notJoined

/-- Corner case (iii) of R175: the SHUTDOWN in progress belongs to another producer. -/
theorem execShutdown_refuses_second {s : State} {p : Nat} (live : s.halted = false) (other : s.stopping = some p)
    (hne : p ≠ s.caller) : execShutdown s = .refused .shutdownInProgress := by
  simp [execShutdown, live, other, hne]

/-! ### The dispatcher without work -/

/-- EXIT (R219): a stopped block whose queue is empty or is not drained. -/
theorem dispatcherStep_exits {s : State} (idle : s.w = .idle) (stopped : s.running = false)
    (done : s.q = [] ∨ s.params.drainOnShutdown = false) : dispatcherStep s = .next s.exitStep := by
  rcases dispatcherStep_cases s with ⟨_, _, busy, _⟩ | ⟨m, ms, _, hq, may, _⟩ | ⟨_, _, _, exits⟩ |
    ⟨exited | ⟨_, _, running⟩, _⟩
  · simp [idle] at busy
  · simp [stopped, hq] at may done
    simp [may] at done
  · exact exits
  · simp [idle] at exited
  · simp [stopped] at running

/-- R265: nothing to take and nothing to stop for. -/
theorem dispatcherStep_blocked {s : State} (idle : s.w = .idle) (empty : s.q = []) (running : s.running = true) :
    dispatcherStep s = .next s := by
  simp [dispatcherStep, idle, empty, running]

theorem dispatcherStep_exited {s : State} (exited : s.w = .exited) : dispatcherStep s = .next s := by
  simp [dispatcherStep, exited]

/-! ### What a step does to the port trace -/

/-- Only two operations reach a port: the closes of SHUTDOWN and a write attempt (R175, R210). -/
theorem step_trace_cases {s t : State} (h : step s = .next t) :
    t.trace = s.trace ∨ (∃ headFirst, t.trace = (s.closeBoth headFirst).trace) ∨
      ∃ d bytes a, t.trace = (s.writeAttempt d bytes a).trace := by
  obtain ⟨u, rfl, ⟨-, effect⟩ | ⟨-, effect⟩⟩ := step_effect h
  · cases effect with
    | shutdownDone => exact .inr (.inl ⟨_, rfl⟩)
    | idle => exact .inl rfl
    | responded => exact .inl rfl
    | pushed => exact .inl rfl
    | waited => exact .inl rfl
    | completed => exact .inl rfl
    | shutdownBegun => exact .inl rfl
  · cases effect with
    | attempted => exact .inr (.inr ⟨_, _, _, rfl⟩)
    | idle => exact .inl rfl
    | dequeued => exact .inl rfl
    | exited => exact .inl rfl

/-- Judged events after a judged trace. -/
theorem writesJudged_append_of_both {t u : List PortEvent} (ht : writesJudged t = true)
    (hu : writesJudged u = true) : writesJudged (t ++ u) = true :=
  (writesJudged_append t u ht).trans hu

theorem closeOf_writesJudged (s : State) (d : Dest) : writesJudged (closeOf s d) = true := by
  cases h : s.connected d <;> simp [closeOf, h, writesJudged]

theorem lazyEvents_writesJudged (connected : Bool) (d : Dest) (r : Option Link) :
    writesJudged (lazyEvents connected d r) = true := by
  cases connected <;> rfl

theorem reconnectEvents_writesJudged (connected : Bool) (d : Dest) (r : Option Link) :
    writesJudged (reconnectEvents connected d r) = true := by
  cases connected <;> rfl

/-- The WRITE event of an attempt, if there is one, carries the bounded count and is judged by its own ATTEMPT
event (R13, R211). -/
theorem writeEvents_writesJudged (connected : Bool) (d : Dest) (bytes : Bytes) (a : Draws) :
    writesJudged (writeEvents connected d bytes a) = true := by
  cases connected with
  | false => rfl
  | true =>
    have bound : min a.moved bytes.length ≤ bytes.length := Nat.min_le_right ..
    simp [writeEvents, writesJudged, bound]

theorem closeBoth_writesJudged {s : State} (h : writesJudged s.trace = true) (headFirst : Bool) :
    writesJudged (s.closeBoth headFirst).trace = true := by
  rw [closeBoth_trace]
  apply writesJudged_append_of_both h
  cases headFirst with
  | true => exact writesJudged_append_of_both (closeOf_writesJudged s .head) (closeOf_writesJudged s .bottom)
  | false => exact writesJudged_append_of_both (closeOf_writesJudged s .bottom) (closeOf_writesJudged s .head)

theorem writeAttempt_writesJudged {s : State} (h : writesJudged s.trace = true) (d : Dest) (bytes : Bytes)
    (a : Draws) : writesJudged (s.writeAttempt d bytes a).trace = true := by
  obtain ⟨c, -, trace_eq⟩ := writeAttempt_trace s d bytes a
  have judged : writesJudged
      (s.trace ++ lazyEvents (s.connected d) d a.lazy ++ writeEvents c d bytes a) = true :=
    writesJudged_append_of_both
      (writesJudged_append_of_both h (lazyEvents_writesJudged ..)) (writeEvents_writesJudged ..)
  rcases trace_eq with e | e
  · rwa [e]
  · rw [e]
    exact writesJudged_append_of_both judged (reconnectEvents_writesJudged ..)

/-! ### The statements -/

/-- Settles O53: of all a step can do, only the closes of SHUTDOWN and a write attempt append events, and both
append judged ones. -/
theorem stepKeepsWritesJudged : Obligations.StepKeepsWritesJudged := by
  intro s t judged hstep
  rcases step_trace_cases hstep with e | ⟨headFirst, e⟩ | ⟨d, bytes, a, e⟩ <;> rw [e]
  · exact judged
  · exact closeBoth_writesJudged judged headFirst
  · exact writeAttempt_writesJudged judged d bytes a

/-- Settles O25, by whose SHUTDOWN is in progress: the caller's own waits, another's refuses the caller. -/
theorem shutdownWaitsForTheDispatcher : Obligations.ShutdownWaitsForTheDispatcher := by
  intro s live
  rw [exec_shutdown]
  exact ⟨execShutdown_waits live, fun _ => execShutdown_refuses_second live⟩

/-- Settles O35, by the phase and the running flag. -/
theorem dispatcherExitsOrBlocks : Obligations.DispatcherExitsOrBlocks :=
  fun _ => ⟨dispatcherStep_exits, dispatcherStep_blocked, dispatcherStep_exited⟩

/-- Settles O44: a command word is the issued item of a fresh producer, so the second clause is the first one at the
state that `withFetchWord` builds. -/
theorem stepRunsTheIssuedInstruction : Obligations.StepRunsTheIssuedInstruction := by
  refine ⟨fun s it i => step_of_issued, fun s nbits w i hwidth hword => ?_, fun s => step_of_nothing_issued⟩
  have hdecode : decode (tableItem nbits w) = .ok i := decodeTableWord_eq_some.mp hword
  have hformat : i.format = .cmd := (decode_format hdecode).trans (tableItem_format_cmd hwidth w)
  exact step_of_issued rfl (s.withFetchWord_fetchItem nbits w) (.inl hformat) hdecode

/-- Settles O60: a word of 168 bits stands for a frame, which is of no format a user issues, so the last clause is
the first one at the state that `withFetchWord` builds. -/
theorem stepRefusesWhatNoUserCanIssue : Obligations.StepRefusesWhatNoUserCanIssue := by
  refine ⟨fun s it hturn hfetch => ⟨step_of_other_format hturn hfetch,
    fun e => step_of_undecodable hturn hfetch⟩, fun s w => ?_⟩
  have hframe := tableItem_format_frame w
  exact step_of_other_format rfl (s.withFetchWord_fetchItem 168 w) (by simp [hframe]) (by simp [hframe])

end Sys2Proof.Machine
end

section
/-! The statements about the state: what reset leaves, what every step keeps, and what each agent may touch. -/

namespace Sys2Proof.Machine

/-! ### Reset, the queue's room and the status observations -/

@[simp] theorem reset_ep (d : Dest) : State.reset.ep d = { link := none, failCount := 0 } := by
  cases d <;> rfl

theorem hasRoom_of_unbounded {s : State} (unbounded : s.params.queueDepth = none) : s.hasRoom = true := by
  simp [State.hasRoom, unbounded]

theorem hasRoom_of_full {s : State} {depth : Nat} (bounded : s.params.queueDepth = some depth)
    (full : depth ≤ s.q.length) : s.hasRoom = false := by
  simp [State.hasRoom, bounded, full]

/-- R177: without room the sender waits, and its message is not queued. -/
theorem send_waits {s : State} (live : s.halted = false) (noRoom : s.hasRoom = false) (m : Message) :
    s.send m = .next s.suspend := by
  simp [State.send, live, noRoom]

theorem queueEmpty_iff (s : State) : s.queueEmpty = true ↔ s.q = [] := List.isEmpty_iff

theorem statusConnected_iff (s : State) (d : Dest) : s.statusConnected d = true ↔ (s.ep d).link ≠ none :=
  Option.isSome_iff_ne_none

/-! ### The two closes of SHUTDOWN, field by field -/

@[simp] theorem closeBoth_q (s : State) (headFirst : Bool) : (s.closeBoth headFirst).q = s.q := by
  obtain ⟨q, -⟩ := closeBoth_frame s headFirst
  exact q

@[simp] theorem closeBoth_running (s : State) (headFirst : Bool) : (s.closeBoth headFirst).running = s.running := by
  obtain ⟨-, running, -⟩ := closeBoth_frame s headFirst
  exact running

@[simp] theorem closeBoth_w (s : State) (headFirst : Bool) : (s.closeBoth headFirst).w = s.w := by
  obtain ⟨-, -, w, -⟩ := closeBoth_frame s headFirst
  exact w

@[simp] theorem closeBoth_params (s : State) (headFirst : Bool) : (s.closeBoth headFirst).params = s.params := by
  obtain ⟨-, -, -, -, -, -, params, -⟩ := closeBoth_frame s headFirst
  exact params

theorem closeBoth_trace_grows (s : State) (headFirst : Bool) : s.trace <+: (s.closeBoth headFirst).trace := by
  rw [closeBoth_trace]
  exact List.prefix_append _ _

/-! ### What each agent does to the records and the trace -/

theorem step_producer_effect {s t : State} (h : step s = .next t) (hturn : s.turn = .producer) :
    ∃ u, t = u.reschedule ∧ ProducerEffect s u := by
  obtain ⟨u, rfl, ⟨-, effect⟩ | ⟨hd, -⟩⟩ := step_effect h
  · exact ⟨u, rfl, effect⟩
  · simp [hturn] at hd

theorem step_dispatcher_effect {s t : State} (h : step s = .next t) (hturn : s.turn = .dispatcher) :
    ∃ u, t = u.reschedule ∧ DispatcherEffect s u := by
  obtain ⟨u, rfl, ⟨hp, -⟩ | ⟨-, effect⟩⟩ := step_effect h
  · simp [hturn] at hp
  · exact ⟨u, rfl, effect⟩

/-- `t` has the records and the port trace of `s`. -/
structure SamePorts (s t : State) : Prop where
  ep : ∀ d, t.ep d = s.ep d
  trace : t.trace = s.trace

/-- A destination's record is one of two fields of the state. -/
theorem SamePorts.of_fields {s t : State} (head : t.head = s.head) (bottom : t.bottom = s.bottom)
    (trace : t.trace = s.trace) : SamePorts s t :=
  ⟨State.ep_congr head bottom, trace⟩

theorem samePorts_reschedule (s : State) : SamePorts s s.reschedule := .of_fields rfl rfl rfl

theorem SamePorts.trans {s t u : State} (h₁ : SamePorts s t) (h₂ : SamePorts t u) : SamePorts s u :=
  ⟨fun d => (h₂.ep d).trans (h₁.ep d), h₂.trace.trans h₁.trace⟩

/-- A producer reaches the ports only when its SHUTDOWN completes, and then by the two closes (R43, R175). -/
theorem ProducerEffect.ports {s u : State} (effect : ProducerEffect s u) :
    SamePorts s u ∨
      ((s.stopping = some s.caller ∧ s.w = .exited ∧ s.halted = false ∧ u.halted = true) ∧
        ∃ headFirst, SamePorts (s.closeBoth headFirst) u) := by
  cases effect with
  | shutdownDone live mine joined =>
    exact .inr ⟨⟨mine, joined, live, rfl⟩, _, .of_fields rfl rfl rfl⟩
  | _ => exact .inl (.of_fields rfl rfl rfl)

/-- The dispatcher reaches the ports only by an attempt of its pending route (R43, R218). -/
theorem DispatcherEffect.ports {s u : State} (effect : DispatcherEffect s u) :
    SamePorts s u ∨
      ∃ a rest, s.w = .busy a rest ∧ ∃ draws, SamePorts (s.writeAttempt a.dest a.bytes draws) u := by
  cases effect with
  | attempted a rest busy => exact .inr ⟨a, rest, busy, _, .of_fields rfl rfl rfl⟩
  | _ => exact .inl (.of_fields rfl rfl rfl)

/-- What any step does to the records and the trace: nothing, the two closes, or one write attempt. -/
theorem step_ports {s t : State} (h : step s = .next t) :
    SamePorts s t ∨ (∃ headFirst, SamePorts (s.closeBoth headFirst) t) ∨
      ∃ d bytes draws, SamePorts (s.writeAttempt d bytes draws) t := by
  obtain ⟨u, rfl, ⟨-, effect⟩ | ⟨-, effect⟩⟩ := step_effect h
  · rcases effect.ports with same | ⟨-, headFirst, same⟩
    · exact .inl (same.trans (samePorts_reschedule u))
    · exact .inr (.inl ⟨headFirst, same.trans (samePorts_reschedule u)⟩)
  · rcases effect.ports with same | ⟨a, -, -, draws, same⟩
    · exact .inl (same.trans (samePorts_reschedule u))
    · exact .inr (.inr ⟨a.dest, a.bytes, draws, same.trans (samePorts_reschedule u)⟩)

/-! ### What each agent leaves alone -/

/-- The phase belongs to the dispatcher (R43). -/
theorem ProducerEffect.keeps_phase {s u : State} (effect : ProducerEffect s u) : u.w = s.w := by
  cases effect with
  | shutdownDone => exact closeBoth_w s _
  | _ => rfl

/-- The flags and everything of the producers belong to them (R43). -/
theorem DispatcherEffect.keeps_producers {s u : State} (effect : DispatcherEffect s u) :
    u.running = s.running ∧ u.halted = s.halted ∧ u.stopping = s.stopping ∧
      u.suspended = s.suspended ∧ u.streams = s.streams ∧ u.responses = s.responses := by
  cases effect with
  | attempted a rest =>
    obtain ⟨-, -, -, -, running, halted, stopping, suspended, -, streams, responses⟩ := attemptStep_fields s a rest
    exact ⟨running, halted, stopping, suspended, streams, responses⟩
  | _ => exact ⟨rfl, rfl, rfl, rfl, rfl, rfl⟩

theorem otherDest_ne (d : Dest) : otherDest d ≠ d := by cases d <;> decide

/-- A write attempt leaves the record of the destination it does not write to. -/
theorem writeAttempt_ep_other (s : State) (d : Dest) (bytes : Bytes) (a : Draws) :
    (s.writeAttempt d bytes a).ep (otherDest d) = s.ep (otherDest d) :=
  (writeAttempt_frame s d bytes a).other _ (otherDest_ne d)

/-- Settles O56, agent by agent, from what each does to the ports and what it leaves alone. -/
theorem agentsTouchOnlyWhatTheyOwn : Obligations.AgentsTouchOnlyWhatTheyOwn := by
  intro s t hstep
  refine ⟨fun hturn => ?_, fun hturn => ?_⟩
  · obtain ⟨u, rfl, effect⟩ := step_producer_effect hstep hturn
    refine ⟨effect.keeps_phase, ?_⟩
    rcases effect.ports with same | ⟨completes, -⟩
    · have same := same.trans (samePorts_reschedule u)
      exact .inl ⟨same.ep, same.trace⟩
    · exact .inr completes
  · obtain ⟨u, rfl, effect⟩ := step_dispatcher_effect hstep hturn
    obtain ⟨running, halted, stopping, suspended, streams, responses⟩ := effect.keeps_producers
    refine ⟨running, halted, stopping, suspended, streams, responses, ?_⟩
    rcases effect.ports with same | ⟨a, rest, busy, draws, same⟩
    · have same := same.trans (samePorts_reschedule u)
      exact .inr ⟨same.ep, same.trace⟩
    · have same := same.trans (samePorts_reschedule u)
      exact .inl ⟨a, rest, busy, (same.ep _).trans (writeAttempt_ep_other s a.dest a.bytes draws)⟩

/-! ### The queue -/

theorem ProducerEffect.queue {s u : State} (effect : ProducerEffect s u) :
    u.q = s.q ∨ (s.halted = false ∧ ∃ m, u.q = s.q ++ [m]) := by
  cases effect with
  | pushed m live => exact .inr ⟨live, m, rfl⟩
  | shutdownDone => exact .inl (closeBoth_q s _)
  | _ => exact .inl rfl

theorem DispatcherEffect.queue {s u : State} (effect : DispatcherEffect s u) :
    u.q = s.q ∨ (s.w = .idle ∧ ∃ m, s.q = m :: u.q) := by
  cases effect with
  | dequeued m ms free head => exact .inr ⟨free, m, head⟩
  | attempted a rest =>
    obtain ⟨-, -, -, q, -⟩ := attemptStep_fields s a rest
    exact .inl q
  | _ => exact .inl rfl

/-- Settles O50: only a send pushes and only DEQUEUE pops. -/
theorem queueMovesByOnePushOrOnePop : Obligations.QueueMovesByOnePushOrOnePop := by
  intro s t hstep
  obtain ⟨u, rfl, ⟨hturn, effect⟩ | ⟨hturn, effect⟩⟩ := step_effect hstep
  · rcases effect.queue with same | ⟨live, m, push⟩
    · exact .inl same
    · exact .inr (.inl ⟨hturn, live, m, push⟩)
  · rcases effect.queue with same | ⟨idle, m, pop⟩
    · exact .inl same
    · exact .inr (.inr ⟨hturn, idle, m, pop⟩)

/-! ### What never comes back -/

/-- A producer can clear the running flag and halt the block, and undo neither (R35, R40). -/
theorem ProducerEffect.one_way {s u : State} (effect : ProducerEffect s u) :
    (s.running = false → u.running = false) ∧ (s.halted = true → u.halted = true) ∧ u.params = s.params := by
  cases effect with
  | shutdownBegun => exact ⟨fun _ => rfl, id, rfl⟩
  | shutdownDone => exact ⟨(closeBoth_running s _).trans, fun _ => rfl, closeBoth_params s _⟩
  | _ => exact ⟨id, id, rfl⟩

theorem DispatcherEffect.keeps_params {s u : State} (effect : DispatcherEffect s u) : u.params = s.params := by
  cases effect with
  | attempted a rest => exact (writeAttempt_frame s a.dest a.bytes _).params
  | _ => rfl

theorem step_trace_grows {s t : State} (h : step s = .next t) : s.trace <+: t.trace := by
  rcases step_ports h with same | ⟨headFirst, same⟩ | ⟨d, bytes, draws, same⟩ <;> rw [same.trace]
  · exact closeBoth_trace_grows s headFirst
  · exact writeAttempt_trace_grows s d bytes draws

/-- Settles O49: SHUTDOWN alone writes the two flags, and in one direction each. -/
theorem runningNeverReturnsAndTraceGrows : Obligations.RunningNeverReturnsAndTraceGrows := by
  intro s t hstep
  have grows := step_trace_grows hstep
  obtain ⟨u, rfl, ⟨-, effect⟩ | ⟨-, effect⟩⟩ := step_effect hstep
  · obtain ⟨running, halted, params⟩ := effect.one_way
    exact ⟨running, grows, halted, params⟩
  · obtain ⟨running, halted, -⟩ := effect.keeps_producers
    exact ⟨running.trans, grows, halted.trans, effect.keeps_params⟩

/-! ### The state invariants -/

/-- While the dispatcher has not exited the block is not halted. -/
theorem State.Inv.not_halted {s : State} (inv : s.Inv) (h : s.w ≠ .exited) : s.halted ≠ true := by
  intro halted
  obtain ⟨-, exited, -⟩ := inv.halted_stops halted
  exact h exited

theorem State.Inv.reschedule {s : State} (inv : s.Inv) : s.reschedule.Inv :=
  ⟨inv.phase_legal, inv.halted_stops, inv.stopping_clears, inv.exited_clears⟩

/-- SHUTDOWN clears the running flag before it waits, and halts only after the dispatcher's exit and both closes;
nothing else of a producer's turn concerns the invariant. -/
theorem ProducerEffect.keeps_inv {s u : State} (effect : ProducerEffect s u) (inv : s.Inv) : u.Inv := by
  cases effect with
  | shutdownBegun live =>
    exact ⟨inv.phase_legal, fun halted => absurd (live.symm.trans halted) (by decide), fun _ => rfl, fun _ => rfl⟩
  | shutdownDone live mine joined =>
    have stopped : (s.closeBoth (Config.closeHeadFirst s.draws)).running = false := by
      rw [closeBoth_running, inv.exited_clears joined]
    have exited : (s.closeBoth (Config.closeHeadFirst s.draws)).w = .exited := by rw [closeBoth_w, joined]
    have released (d : Dest) : ((s.closeBoth (Config.closeHeadFirst s.draws)).ep d).link = none := by
      rw [closeBoth_ep]
    exact {
      phase_legal := congrArg Phase.legal exited
      halted_stops := fun _ => ⟨stopped, exited, released .head, released .bottom⟩
      stopping_clears := fun _ => stopped
      exited_clears := fun _ => stopped }
  | _ => exact ⟨inv.phase_legal, inv.halted_stops, inv.stopping_clears, inv.exited_clears⟩

/-- The dispatcher moves only before its exit, so in a block that is not halted; a route it takes up is legal, and
so is what is left of a legal one. -/
theorem DispatcherEffect.keeps_inv {s u : State} (effect : DispatcherEffect s u) (inv : s.Inv) : u.Inv := by
  obtain ⟨running, halted, stopping, -⟩ := effect.keeps_producers
  have stopping_clears : u.stopping.isSome = true → u.running = false := by
    rw [stopping, running]
    exact inv.stopping_clears
  have not_halted (h : s.w ≠ .exited) : u.halted ≠ true := halted ▸ inv.not_halted h
  cases effect with
  | idle => exact inv
  | dequeued m ms free =>
    exact ⟨route_legal m, fun h => absurd h (not_halted (by simp [free])), stopping_clears,
      fun h => absurd h (phaseOf_ne_exited _)⟩
  | attempted a rest busy =>
    exact ⟨legal_rest a rest (busy ▸ inv.phase_legal), fun h => absurd h (not_halted (by simp [busy])),
      stopping_clears, fun h => absurd h (phaseOf_ne_exited _)⟩
  | exited free stopped =>
    exact ⟨rfl, fun h => absurd h (not_halted (by simp [free])), stopping_clears, fun _ => stopped⟩

/-- Settles O48: the effects of both agents keep the invariant, and the schedule touches nothing it speaks of. -/
theorem stepKeepsTheStateInvariants : Obligations.StepKeepsTheStateInvariants := by
  intro s t inv hstep
  obtain ⟨u, rfl, ⟨-, effect⟩ | ⟨-, effect⟩⟩ := step_effect hstep
  · exact (effect.keeps_inv inv).reschedule
  · exact (effect.keeps_inv inv).reschedule

/-! ### The failure count read off the trace -/

/-- Only ATTEMPT events count (R38). -/
theorem countReplay_append_of_no_attempt (d : Dest) (t : List PortEvent) {evs : List PortEvent}
    (noAttempt : attemptsOf evs = []) : countReplay d (t ++ evs) = countReplay d t := by
  induction evs generalizing t with
  | nil => simp
  | cons ev evs ih =>
    have cons_eq : attemptsOf (ev :: evs) = attemptsOf [ev] ++ attemptsOf evs := attemptsOf_append [ev] evs
    obtain ⟨noneHere, noneAfter⟩ := List.append_eq_nil_iff.mp (cons_eq.symm.trans noAttempt)
    rw [← List.singleton_append, ← List.append_assoc, ih _ noneAfter, countReplay_append]
    cases ev with
    | attempted => simp [attemptsOf, attemptOf] at noneHere
    | _ => rfl

theorem attemptsOf_closeOf (s : State) (d : Dest) : attemptsOf (closeOf s d) = [] := by
  rw [closeOf]
  split <;> rfl

theorem attemptsOf_reconnectEvents (connected : Bool) (d : Dest) (r : Option Link) :
    attemptsOf (reconnectEvents connected d r) = [] := by
  cases connected <;> rfl

theorem countReplay_closeBoth (s : State) (headFirst : Bool) (d : Dest) :
    countReplay d (s.closeBoth headFirst).trace = countReplay d s.trace := by
  rw [closeBoth_trace]
  apply countReplay_append_of_no_attempt
  cases headFirst <;> simp [attemptsOf_append, attemptsOf_closeOf]

theorem countReplay_lazyOpen (s : State) (d : Dest) (r : Option Link) (d' : Dest) :
    countReplay d' (s.lazyOpen d r).trace = countReplay d' s.trace := by
  rcases lazyOpen_cases s d r with ⟨-, e⟩ | ⟨-, e, -⟩ <;> rw [e]
  exact countReplay_append_of_no_attempt d' s.trace rfl

/-- The count after one attempt to `d` with this verdict (R212, R214). -/
def countAfter (fails : Bool) (count : Nat) : Nat := if fails then count + 1 else 0

theorem countReplay_writeEvents (d : Dest) (t : List PortEvent) (connected : Bool) (bytes : Bytes) (a : Draws) :
    countReplay d (t ++ writeEvents connected d bytes a) =
      countAfter (attemptFails connected bytes a) (countReplay d t) := by
  rw [countReplay_append]
  cases connected with
  | false => simp [writeEvents, attemptFails, countAfter, countEvent]
  | true =>
    cases hf : failed a.err (min a.moved bytes.length) <;>
      simp [writeEvents, attemptFails, countAfter, countEvent, hf]

theorem countReplay_writeEvents_other {d d' : Dest} (h : d' ≠ d) (t : List PortEvent) (connected : Bool)
    (bytes : Bytes) (a : Draws) : countReplay d' (t ++ writeEvents connected d bytes a) = countReplay d' t := by
  rw [countReplay_append]
  cases connected with
  | false => simp [writeEvents, countEvent, h.symm]
  | true => cases hf : failed a.err (min a.moved bytes.length) <;> simp [writeEvents, countEvent, h.symm, hf]

/-- Of the events after the lazy open only those of the write itself count, not those of a reconnect cycle. -/
theorem countReplay_writeOpened (s : State) (d : Dest) (bytes : Bytes) (a : Draws) (d' : Dest) :
    countReplay d' (s.writeOpened d bytes a).trace =
      countReplay d' (s.trace ++ writeEvents (s.connected d) d bytes a) := by
  rcases writeOpened_cases s d bytes a with ⟨-, -, e, -⟩ | ⟨-, -, e, -⟩ | ⟨-, -, e, -⟩ <;> rw [e]
  exact countReplay_append_of_no_attempt d' _ (attemptsOf_reconnectEvents ..)

theorem writeOpened_failCount (s : State) (d : Dest) (bytes : Bytes) (a : Draws) :
    ((s.writeOpened d bytes a).ep d).failCount =
      countAfter (attemptFails (s.connected d) bytes a) (s.ep d).failCount := by
  rcases writeOpened_cases s d bytes a with ⟨hf, -, -, e⟩ | ⟨hf, -, -, e⟩ | ⟨hf, -, -, e⟩ <;>
    simp [e, hf, countAfter]

/-- The record of `d` counts what the trace shows (R38). -/
def CountAgrees (d : Dest) (s : State) : Prop := countReplay d s.trace = (s.ep d).failCount

theorem CountAgrees.of_samePorts {d : Dest} {s t : State} (h : CountAgrees d s) (same : SamePorts s t) :
    CountAgrees d t := by
  rw [CountAgrees, same.trace, same.ep d]
  exact h

theorem CountAgrees.closeBoth {d : Dest} {s : State} (h : CountAgrees d s) (headFirst : Bool) :
    CountAgrees d (s.closeBoth headFirst) := by
  rw [CountAgrees, countReplay_closeBoth, closeBoth_ep]
  exact h

theorem CountAgrees.lazyOpen {d' : Dest} {s : State} (h : CountAgrees d' s) (d : Dest) (r : Option Link) :
    CountAgrees d' (s.lazyOpen d r) := by
  have kept : ((s.lazyOpen d r).ep d').failCount = (s.ep d').failCount := by
    by_cases hd : d' = d
    · subst hd
      rcases lazyOpen_cases s d' r with ⟨-, e⟩ | ⟨-, -, e⟩ <;> rw [e]
    · rw [(lazyOpen_frame s d r).other d' hd]
  rw [CountAgrees, countReplay_lazyOpen, kept]
  exact h

theorem CountAgrees.writeOpened {d' : Dest} {s : State} (h : CountAgrees d' s) (d : Dest) (bytes : Bytes)
    (a : Draws) : CountAgrees d' (s.writeOpened d bytes a) := by
  rw [CountAgrees, countReplay_writeOpened]
  by_cases hd : d' = d
  · subst hd
    rw [countReplay_writeEvents, writeOpened_failCount, h]
  · rw [countReplay_writeEvents_other hd, (writeOpened_frame s d bytes a).other d' hd]
    exact h

theorem CountAgrees.writeAttempt {d' : Dest} {s : State} (h : CountAgrees d' s) (d : Dest) (bytes : Bytes)
    (a : Draws) : CountAgrees d' (s.writeAttempt d bytes a) :=
  (h.lazyOpen d a.lazy).writeOpened d bytes a

/-- Settles O52: the closes of SHUTDOWN change neither side, and one attempt changes both alike. -/
theorem stepKeepsTheFailureCount : Obligations.StepKeepsTheFailureCount := by
  intro s t agrees hstep d
  have agrees : CountAgrees d s := agrees d
  rcases step_ports hstep with same | ⟨headFirst, same⟩ | ⟨e, bytes, draws, same⟩
  · exact agrees.of_samePorts same
  · exact (agrees.closeBoth headFirst).of_samePorts same
  · exact (agrees.writeAttempt e bytes draws).of_samePorts same

/-! ### Reset, room and status: the statements -/

/-- Settles O21: at a full queue every send, whatever its kind, is the send that waits. -/
theorem fullQueueMakesTheProducerWait : Obligations.FullQueueMakesTheProducerWait := by
  refine ⟨fun s => hasRoom_of_unbounded, fun depth bytes s bounded full live i hi => ?_⟩
  have waits := send_waits live (hasRoom_of_full bounded full)
  simp only [List.mem_cons, List.not_mem_nil, or_false] at hi
  rcases hi with rfl | rfl | rfl
  · exact waits ⟨.sendToHead, bytes⟩
  · exact waits ⟨.sendToBottom, bytes⟩
  · exact waits ⟨.sendToPoint, bytes⟩

/-- Settles O46, field by field (R45). -/
theorem resetLeavesTheSpecsValues : Obligations.ResetLeavesTheSpecsValues :=
  ⟨rfl, rfl, rfl, fun d => ⟨by rw [reset_ep], (not_connected_iff _ d).mpr (by rw [reset_ep]), by rw [reset_ep]⟩,
    rfl, rfl⟩

theorem reset_inv : State.reset.Inv where
  phase_legal := rfl
  halted_stops := nofun
  stopping_clears := nofun
  exited_clears := nofun

/-- Settles O47: the empty trace replays to no link and to count 0, which is what reset leaves. -/
theorem resetMeetsTheInvariants : Obligations.ResetMeetsTheInvariants :=
  ⟨reset_inv, fun d => by rw [reset_ep]; rfl, fun d => by rw [reset_ep]; rfl, rfl⟩

/-- Settles O59: each observation reads one field (R43). -/
theorem statusObservationsReadTheState : Obligations.StatusObservationsReadTheState :=
  fun s => ⟨queueEmpty_iff s, rfl, fun d => ⟨statusConnected_iff s d, rfl⟩⟩

end Sys2Proof.Machine
end

section
/-! The statements about what the block holds: the layout of a frame's multi-byte fields, the link behind each port,
and the ledger of write attempts with the run of the dispatcher that empties it. -/

namespace Sys2Proof.Machine

/-! ### The multi-byte fields of a frame -/

theorem slice_frameBytes_type (ack : Byte) (datas : Bytes) :
    slice (frameBytes ack datas) 0 2 = [0xA4#8, 0x03#8] := by
  rw [frameBytes, layoutFrame_eq]
  rfl

theorem slice_frameBytes_subtype (ack : Byte) (datas : Bytes) :
    slice (frameBytes ack datas) 2 4 = [0x00#8, 0x00#8] := by
  rw [frameBytes, layoutFrame_eq]
  rfl

theorem slice_frameBytes_msgSize (ack : Byte) (datas : Bytes) :
    slice (frameBytes ack datas) 4 8 = be32 (datas.length + 6) := by
  rw [frameBytes, layoutFrame_eq]
  rfl

theorem slice_frameBytes_frameHead (ack : Byte) (datas : Bytes) :
    slice (frameBytes ack datas) 16 18 = [0xFF#8, 0xA5#8] := by
  rw [frameBytes, layoutFrame_eq]
  rfl

theorem slice_frameBytes_mmnn (ack : Byte) (datas : Bytes) :
    slice (frameBytes ack datas) 19 21 = be16 (datas.length + 1) := by
  rw [frameBytes, layoutFrame_eq]
  rfl

/-- Settles O11, field by field; the bound on the payload is what lets a reader take both lengths back. -/
theorem frameFieldsAreBigEndian : Obligations.FrameFieldsAreBigEndian := by
  intro ack datas bound
  have msgSize := slice_frameBytes_msgSize ack datas
  have mmnn := slice_frameBytes_mmnn ack datas
  refine ⟨slice_frameBytes_type ack datas, slice_frameBytes_subtype ack datas, msgSize, ?_,
    slice_frameBytes_frameHead ack datas, mmnn, ?_⟩
  · rw [msgSize, beNat_be32 _ (by omega)]
  · rw [mmnn, beNat_be16 _ (by omega)]

/-! ### The link behind a port

Each port request of the model is made at a moment when the grammar of R76 allows it, so the replay of the trace
follows the link through every operation. -/

/-- The trace keeps the grammar at `d` and leads to the link the record of `d` holds (R76). -/
def PortAgrees (d : Dest) (s : State) : Prop := portReplay d s.trace = some (s.ep d).link

theorem PortAgrees.of_samePorts {d : Dest} {s t : State} (h : PortAgrees d s) (same : SamePorts s t) :
    PortAgrees d t := by
  rw [PortAgrees, same.trace, same.ep d]
  exact h

/-- One more event moves the replay from the link held by one `portEvent`. -/
theorem PortAgrees.replay_append {d : Dest} {s : State} (h : PortAgrees d s) (ev : PortEvent) :
    portReplay d (s.trace ++ [ev]) = portEvent d (some (s.ep d).link) ev := by
  rw [portReplay_append, h]
  rfl

theorem PortAgrees.attempted {d : Dest} {s : State} (h : PortAgrees d s) (e : Dest) (bytes : Bytes) (v : Verdict) :
    PortAgrees d (s.record (.attempted e bytes v)) := by
  rw [PortAgrees, State.record_trace, h.replay_append, State.record_ep]
  rfl

/-- A write is allowed while a handle is held, and keeps it. -/
theorem PortAgrees.wrote {d : Dest} {s : State} (h : PortAgrees d s) {e : Dest} (held : s.connected e = true)
    (bytes : Bytes) (err : Int) (n : Nat) : PortAgrees d (s.record (.wrote e bytes err n)) := by
  rw [PortAgrees, State.record_trace, h.replay_append, State.record_ep]
  by_cases hd : e = d
  · subst hd
    obtain ⟨l, link⟩ := (connected_iff s e).mp held
    simp [portEvent, link]
  · simp [portEvent, hd]

/-- An open is allowed while no handle is held, and leads to what it draws. -/
theorem PortAgrees.openDevice {d : Dest} {s : State} (h : PortAgrees d s) {e : Dest}
    (free : s.connected e = false) (r : Option Link) : PortAgrees d (s.openDevice e r) := by
  rw [PortAgrees, openDevice_trace, h.replay_append]
  by_cases hd : e = d
  · subst hd
    have link := (not_connected_iff s e).mp free
    simp [portEvent, openDevice_ep, link]
  · rw [(openDevice_frame s e r).other d (Ne.symm hd)]
    simp [portEvent, hd]

/-- A close is allowed while a handle is held, and gives it up. -/
theorem PortAgrees.closeDevice {d : Dest} {s : State} (h : PortAgrees d s) {e : Dest}
    (held : s.connected e = true) : PortAgrees d (s.closeDevice e) := by
  rw [PortAgrees, closeDevice_trace, h.replay_append]
  by_cases hd : e = d
  · subst hd
    obtain ⟨l, link⟩ := (connected_iff s e).mp held
    simp [portEvent, closeDevice_ep, link]
  · rw [(closeDevice_frame s e).other d (Ne.symm hd)]
    simp [portEvent, hd]

theorem PortAgrees.closeIfConnected {d : Dest} {s : State} (h : PortAgrees d s) (e : Dest) :
    PortAgrees d (s.closeIfConnected e) := by
  rcases closeIfConnected_cases s e with ⟨held, eq⟩ | ⟨-, eq⟩ <;> rw [eq]
  · exact h.closeDevice held
  · exact h

theorem PortAgrees.closeBoth {d : Dest} {s : State} (h : PortAgrees d s) (headFirst : Bool) :
    PortAgrees d (s.closeBoth headFirst) := by
  cases headFirst with
  | true => exact (h.closeIfConnected .head).closeIfConnected .bottom
  | false => exact (h.closeIfConnected .bottom).closeIfConnected .head

theorem closeIfConnected_not_connected (s : State) (d : Dest) : (s.closeIfConnected d).connected d = false :=
  (not_connected_iff _ d).mpr (by rw [closeIfConnected_ep])

theorem PortAgrees.reconnect {d : Dest} {s : State} (h : PortAgrees d s) (e : Dest) (r : Option Link) :
    PortAgrees d (s.reconnect e r) :=
  (h.closeIfConnected e).openDevice (closeIfConnected_not_connected s e) r

theorem PortAgrees.lazyOpen {d : Dest} {s : State} (h : PortAgrees d s) (e : Dest) (r : Option Link) :
    PortAgrees d (s.lazyOpen e r) := by
  rw [State.lazyOpen]
  split
  next => exact h
  next free => exact h.openDevice (Bool.eq_false_iff.mpr free) r

/-- The link is held apart from the count. -/
theorem PortAgrees.setFailCount {d : Dest} {s : State} (h : PortAgrees d s) (e : Dest) (c : Nat) :
    PortAgrees d (s.setFailCount e c) := by
  have kept : ((s.setFailCount e c).ep d).link = (s.ep d).link := by
    by_cases hd : d = e
    · subst hd
      rw [setFailCount_ep]
    · rw [(setFailCount_frame s e c).other d hd]
  rw [PortAgrees, setFailCount_trace, kept]
  exact h

theorem PortAgrees.takeFailure {d : Dest} {s : State} (h : PortAgrees d s) (e : Dest) (r : Option Link) :
    PortAgrees d (s.takeFailure e r) := by
  have counted := h.setFailCount e ((s.ep e).failCount + 1)
  simp only [State.takeFailure]
  split
  · exact counted.reconnect e r
  · exact counted

theorem PortAgrees.writeOpened {d : Dest} {s : State} (h : PortAgrees d s) (e : Dest) (bytes : Bytes) (a : Draws) :
    PortAgrees d (s.writeOpened e bytes a) := by
  simp only [State.writeOpened]
  split
  next held =>
    have written := h.wrote held bytes a.err (min a.moved bytes.length)
    split
    · exact (written.attempted e bytes .fail).takeFailure e a.reopen
    · exact (written.attempted e bytes .ok).setFailCount e 0
  next => exact (h.attempted e bytes .fail).takeFailure e a.reopen

theorem PortAgrees.writeAttempt {d : Dest} {s : State} (h : PortAgrees d s) (e : Dest) (bytes : Bytes) (a : Draws) :
    PortAgrees d (s.writeAttempt e bytes a) :=
  (h.lazyOpen e a.lazy).writeOpened e bytes a

/-- Settles O51: only the closes of SHUTDOWN and a write attempt reach a port, and both keep the agreement. -/
theorem stepKeepsThePortGrammar : Obligations.StepKeepsThePortGrammar := by
  intro s t agrees hstep d
  have agrees : PortAgrees d s := agrees d
  rcases step_ports hstep with same | ⟨headFirst, same⟩ | ⟨e, bytes, draws, same⟩
  · exact agrees.of_samePorts same
  · exact (agrees.closeBoth headFirst).of_samePorts same
  · exact (agrees.writeAttempt e bytes draws).of_samePorts same

/-! ### The ledger of write attempts -/

@[simp] theorem Phase.pending_idle : Phase.idle.pending = [] := rfl

@[simp] theorem Phase.pending_busy (a : Attempt) (rest : List Attempt) : (Phase.busy a rest).pending = a :: rest := rfl

@[simp] theorem Phase.pending_exited : Phase.exited.pending = [] := rfl

/-- A close is no write attempt (R220). -/
theorem attemptsOf_closeBoth (s : State) (headFirst : Bool) :
    attemptsOf (s.closeBoth headFirst).trace = attemptsOf s.trace := by
  rw [closeBoth_trace]
  cases headFirst <;> simp [attemptsOf_append, attemptsOf_closeOf]

/-- The ledger is read from the attempts of the trace, the phase and the queue alone. -/
theorem ledger_congr {s t : State} (made : attemptsOf t.trace = attemptsOf s.trace) (w : t.w = s.w) (q : t.q = s.q) :
    t.ledger = s.ledger := by
  rw [State.ledger, made, w, q, State.ledger]

/-- A push writes the route of its message at the end of the ledger. -/
theorem ledger_push (s : State) (m : Message) : (s.push m).ledger = s.ledger ++ route m := by
  simp [State.ledger]

/-- DEQUEUE moves the route of the oldest message from the queue to the phase, which held nothing (R201). -/
theorem ledger_dequeue {s : State} {m : Message} {ms : List Message} (free : s.w = .idle) (head : s.q = m :: ms) :
    ({ s with q := ms, w := phaseOf (route m) } : State).ledger = s.ledger := by
  simp [State.ledger, free, head]

/-- ATTEMPT moves the first pending attempt to those made, whether it succeeds or fails (R217, R218). -/
theorem ledger_attemptStep {s : State} {a : Attempt} {rest : List Attempt} (busy : s.w = .busy a rest) :
    (s.attemptStep a rest).ledger = s.ledger := by
  obtain ⟨w, trace, -, q, -⟩ := attemptStep_fields s a rest
  simp [State.ledger, w, trace, q, busy, attemptsOf_writeAttempt]

/-- EXIT is taken from the phase `Idle`, which holds no attempt (R219). -/
theorem ledger_exitStep {s : State} (free : s.w = .idle) : s.exitStep.ledger = s.ledger := by
  simp [State.ledger, free]

/-- A producer's turn extends the ledger by the route of what it pushes, at most one message. -/
theorem ProducerEffect.ledger {s u : State} (effect : ProducerEffect s u) :
    u.ledger = s.ledger ∨ ∃ m, u.ledger = s.ledger ++ route m ∧ u.q = s.q ++ [m] := by
  cases effect with
  | pushed m => exact .inr ⟨m, ledger_push s m, rfl⟩
  | shutdownDone =>
    exact .inl (ledger_congr (attemptsOf_closeBoth s _) (closeBoth_w s _) (closeBoth_q s _))
  | _ => exact .inl rfl

/-- The dispatcher's turn moves attempts along the ledger and leaves it as it is. -/
theorem DispatcherEffect.ledger {s u : State} (effect : DispatcherEffect s u) : u.ledger = s.ledger := by
  cases effect with
  | idle => rfl
  | dequeued m ms free head => exact ledger_dequeue free head
  | attempted a rest busy => exact ledger_attemptStep busy
  | exited free => exact ledger_exitStep free

/-- Settles O54: the message a producer's turn pushes is the one addition, and the schedule touches nothing the
ledger is read from. -/
theorem ledgerOnlyGrowsAtItsEnd : Obligations.LedgerOnlyGrowsAtItsEnd := by
  intro s t hstep
  obtain ⟨u, rfl, ⟨hturn, effect⟩ | ⟨-, effect⟩⟩ := step_effect hstep
  · rcases effect.ledger with same | ⟨m, grown, push⟩
    · exact ⟨[], same.trans (by simp), by simp, by simp⟩
    · exact ⟨[m], grown.trans (by simp), by simp, fun _ => ⟨hturn, push⟩⟩
  · exact ⟨[], effect.ledger.trans (by simp), by simp, by simp⟩

/-! ### The dispatcher alone -/

/-- A dispatcher that has not exited has no work left just when it is idle and the queue is empty. -/
theorem done_of_work_eq_zero {s : State} (live : s.w ≠ .exited) (work : s.work = 0) : s.w = .idle ∧ s.q = [] := by
  have ⟨noPending, noQueued⟩ := Nat.add_eq_zero_iff.mp work
  constructor
  · cases hw : s.w with
    | idle => rfl
    | busy a rest => simp [hw] at noPending
    | exited => exact absurd hw live
  · cases hq : s.q with
    | nil => rfl
    | cons m ms => simp [hq] at noQueued

theorem ledger_of_done {s : State} (idle : s.w = .idle) (empty : s.q = []) : s.ledger = attemptsOf s.trace := by
  simp [State.ledger, idle, empty]

theorem work_attemptStep {s : State} {a : Attempt} {rest : List Attempt} (busy : s.w = .busy a rest) :
    s.work = (s.attemptStep a rest).work + 1 := by
  obtain ⟨w, -, -, q, -⟩ := attemptStep_fields s a rest
  simp only [State.work, w, q, busy, phaseOf_pending, Phase.pending_busy, List.length_cons]
  omega

theorem work_dequeue {s : State} {m : Message} {ms : List Message} (free : s.w = .idle) (head : s.q = m :: ms) :
    s.work = ({ s with q := ms, w := phaseOf (route m) } : State).work + 1 := by
  simp only [State.work, free, head, phaseOf_pending, Phase.pending_idle, List.length_nil, List.map_cons, List.sum_cons]
  omega

/-- In a running block with work left the dispatcher has a DEQUEUE or an ATTEMPT to take, which takes one off the
work and does not let it exit (R201, R218). -/
theorem dispatcherStep_works {s : State} (running : s.running = true) (live : s.w ≠ .exited) (busy : s.work ≠ 0) :
    ∃ t, dispatcherStep s = .next t ∧ s.work = t.work + 1 ∧ t.w ≠ .exited := by
  rcases dispatcherStep_cases s with ⟨a, rest, hw, e⟩ | ⟨m, ms, hw, hq, -, e⟩ | ⟨-, stopped, -⟩ |
    ⟨exited | ⟨idle, empty, -⟩, -⟩
  · exact ⟨_, e, work_attemptStep hw, phaseOf_ne_exited rest⟩
  · exact ⟨_, e, work_dequeue hw hq, phaseOf_ne_exited (route m)⟩
  · simp [running] at stopped
  · exact absurd exited live
  · simp [State.work, idle, empty] at busy

theorem dispatcherRun_succ {s t : State} (h : dispatcherStep s = .next t) (k : Nat) :
    dispatcherRun (k + 1) s = dispatcherRun k t := by
  simp [dispatcherRun, h]

/-- As many turns as there is work use it up, and the ledger is the same at their end as at their start. -/
theorem dispatcherRun_works {s : State} (running : s.running = true) (live : s.w ≠ .exited) {k : Nat}
    (work : s.work = k) :
    ∃ t, dispatcherRun k s = .next t ∧ t.w ≠ .exited ∧ t.work = 0 ∧ t.ledger = s.ledger := by
  induction k generalizing s with
  | zero => exact ⟨s, rfl, live, work, rfl⟩
  | succ k ih =>
    obtain ⟨u, hstep, less, live'⟩ := dispatcherStep_works running live (by omega)
    have effect := dispatcherStep_effect hstep
    obtain ⟨kept, -⟩ := effect.keeps_producers
    obtain ⟨t, hrun, liveEnd, done, same⟩ := ih (kept.trans running) live' (by omega)
    exact ⟨t, (dispatcherRun_succ hstep k).trans hrun, liveEnd, done, same.trans effect.ledger⟩

/-- Settles O55: the run uses up the work, and where none is left the ledger is what was made. -/
theorem dispatcherDrainsTheQueue : Obligations.DispatcherDrainsTheQueue := by
  intro s running live
  obtain ⟨t, hrun, liveEnd, done, same⟩ := dispatcherRun_works running live rfl
  obtain ⟨idle, empty⟩ := done_of_work_eq_zero liveEnd done
  exact ⟨t, hrun, empty, idle, (ledger_of_done idle empty).symm.trans same⟩

end Sys2Proof.Machine
end

section
/-! The statements about the encodings: the decoder and the encoder undo each other in every format, reserved codes
included, and a frame's pattern fixes all of its header but the stored fields. -/

namespace Sys2Proof.Machine

/-! ### Command transactions -/

theorem commandByte_cases (op : Byte) :
    op = 0#8 ∨ op = 1#8 ∨ op = 2#8 ∨ op = 3#8 ∨ op = 4#8 ∨ op = 5#8 ∨ op = 6#8 ∨ op = 7#8 ∨ 8 ≤ op.toNat := by
  bv_omega

theorem decodeCommand_appendTag (frame : Bytes) (tag : Byte) :
    decodeCommand (0x02#8 :: (frame ++ [tag])) = .ok (.appendTag frame tag) := by
  simp [decodeCommand]

/-- R101: from 0x08 on the command byte is reserved, whatever follows it. -/
theorem decodeCommand_reserved {op : Byte} (reserved : 8 ≤ op.toNat) (operands : Bytes) :
    decodeCommand (op :: operands) = .ok (.cmdReserved op operands) := by
  obtain ⟨n, hn⟩ := Nat.exists_eq_add_of_le' reserved
  simp only [decodeCommand, hn]

/-- A command transaction that decodes is the one its instruction is written as. -/
theorem encode_of_decodeCommand {bytes : Bytes} {i : Instr} (h : decodeCommand bytes = .ok i) :
    encode i = .command bytes ∧ i.encodable = true := by
  cases bytes with
  | nil => simp [decodeCommand] at h
  | cons op rest =>
    rcases commandByte_cases op with rfl | rfl | rfl | rfl | rfl | rfl | rfl | rfl | reserved
    · cases rest with
      | nil => simp [decodeCommand] at h
      | cons mode es => cases h; exact ⟨rfl, rfl⟩
    · cases rest with
      | nil => simp [decodeCommand] at h
      | cons ack datas => cases h; exact ⟨rfl, rfl⟩
    · rcases List.eq_nil_or_concat' rest with rfl | ⟨frame, tag, rfl⟩
      · simp [decodeCommand, splitLast] at h
      · rw [decodeCommand_appendTag] at h
        cases h
        simp [encode, Instr.encodable]
    · cases h; exact ⟨rfl, rfl⟩
    · cases h; exact ⟨rfl, rfl⟩
    · cases h; exact ⟨rfl, rfl⟩
    · cases rest with
      | nil => cases h; exact ⟨rfl, rfl⟩
      | cons b bs => simp [decodeCommand] at h
    · cases rest with
      | nil => cases h; exact ⟨rfl, rfl⟩
      | cons b bs => simp [decodeCommand] at h
    · rw [decodeCommand_reserved reserved] at h
      cases h
      exact ⟨rfl, by simpa [Instr.encodable] using reserved⟩

/-! ### The dispatcher's two decode stages -/

theorem encode_decodeKind (code : BitVec 2) (data : Bytes) :
    encode (decodeKind code data) = .message code data ∧ (decodeKind code data).encodable = true := by
  have codes : ∀ c : BitVec 2, c = 0#2 ∨ c = 1#2 ∨ c = 2#2 ∨ c = 3#2 := by decide
  rcases codes code with rfl | rfl | rfl | rfl <;> exact ⟨rfl, rfl⟩

/-- R99: a tag is one of the three routing values, or reserved. -/
theorem tag_cases (tag : Byte) :
    tag = 1#8 ∨ tag = 2#8 ∨ tag = 3#8 ∨ (tag.toNat = 0 ∨ 4 ≤ tag.toNat) := by
  bv_omega

theorem decodeTag_reserved (frame : Bytes) {tag : Byte} (reserved : tag.toNat = 0 ∨ 4 ≤ tag.toNat) :
    decodeTag frame tag = .tagReserved frame tag := by
  have notHead : tag ≠ tagHeadValue := by rintro rfl; simp [tagHeadValue] at reserved
  have notBottom : tag ≠ tagBottomValue := by rintro rfl; simp [tagBottomValue] at reserved
  have notBroadcast : tag ≠ tagBroadcastValue := by rintro rfl; simp [tagBroadcastValue] at reserved
  simp [decodeTag, notHead, notBottom, notBroadcast]

theorem encode_decodeTag (frame : Bytes) (tag : Byte) :
    encode (decodeTag frame tag) = .tagged (frame ++ [tag]) ∧ (decodeTag frame tag).encodable = true := by
  rcases tag_cases tag with rfl | rfl | rfl | reserved
  · exact ⟨rfl, rfl⟩
  · exact ⟨rfl, rfl⟩
  · exact ⟨rfl, rfl⟩
  · rw [decodeTag_reserved frame reserved]
    exact ⟨rfl, by simpa [Instr.encodable] using reserved⟩

/-! ### Buffers whose last byte stands apart -/

theorem decode_tagged (frame : Bytes) (tag : Byte) :
    decode (.tagged (frame ++ [tag])) = .ok (decodeTag frame tag) := by
  simp [decode]

theorem decode_routed (frame : Bytes) (tag : Byte) : decode (.routed (frame ++ [tag])) = .ok (.rbuf frame tag) := by
  simp [decode]

/-! ### The frame's layout and pattern -/

/-- The 21 bytes of a frame before its payload, with the two length fields as bytes (R91). -/
def frameHeader (size : Bytes) (ack1 ack2 : Byte) (count : Bytes) : Bytes :=
  [0xA4#8, 0x03#8, 0x00#8, 0x00#8] ++ size ++ [ack1] ++ List.replicate 7 0x00#8 ++ [0xFF#8, 0xA5#8] ++ [ack2] ++ count

theorem layoutFrame_eq_header (msgSize : Nat) (ack1 ack2 : Byte) (mmnn : Nat) (datas : Bytes) (ck : Byte) :
    layoutFrame msgSize ack1 ack2 mmnn datas ck =
      frameHeader (be32 msgSize) ack1 ack2 (be16 mmnn) ++ (datas ++ [ck]) :=
  layoutFrame_eq msgSize ack1 ack2 mmnn datas ck

theorem beNat_lt (bs : Bytes) : beNat bs < 256 ^ bs.length := by
  induction bs using List.reverseRecOn with
  | nil => simp [beNat]
  | append_singleton bs b ih =>
    have := b.isLt
    simp only [beNat, List.foldl_append, List.foldl_cons, List.foldl_nil, List.length_append, List.length_singleton,
      pow_succ] at ih ⊢
    omega

theorem toNat_msgSize (a b c d : Byte) : (BitVec.ofNat 32 (beNat [a, b, c, d])).toNat = beNat [a, b, c, d] := by
  simpa using beNat_lt [a, b, c, d]

theorem toNat_mmnn (a b : Byte) : (BitVec.ofNat 16 (beNat [a, b])).toNat = beNat [a, b] := by
  simpa using beNat_lt [a, b]

/-- A `msg_size` whose first 15 bits are zero is below 2^17. -/
theorem beNat_msgSize_lt {hi : Byte} (bound : hi.toNat < 2) (m₁ m₀ : Byte) :
    beNat [0x00#8, hi, m₁, m₀] < 2 ^ 17 := by
  have := m₁.isLt
  have := m₀.isLt
  simp only [beNat, List.foldl, BitVec.toNat_ofNat]
  omega

/-- The bytes of a sequence under a mask, as far as the mask reaches (R109). -/
def masked (mask bs : Bytes) : Bytes := List.zipWith (fun b m => b &&& m) (bs.take mask.length) mask

theorem matchesFrame_eq_masked (bs : Bytes) : matchesFrame bs = (masked frameMask bs == framePattern) := rfl

/-- A mask byte `0xFF` fixes its byte. -/
theorem masked_fixed (mask bs : Bytes) (p : Byte) (pattern : Bytes) :
    masked (0xFF :: mask) bs = p :: pattern ↔ ∃ rest, bs = p :: rest ∧ masked mask rest = pattern := by
  have all (b : Byte) : b &&& 0xFF#8 = b := BitVec.and_allOnes
  cases bs <;> simp [masked, all]

/-- The mask byte `0xFE` leaves the lowest bit of its byte open. -/
theorem masked_high (mask bs pattern : Bytes) :
    masked (0xFE :: mask) bs = 0 :: pattern ↔ ∃ b rest, b.toNat < 2 ∧ bs = b :: rest ∧ masked mask rest = pattern := by
  have high : ∀ b : Byte, b &&& 0xFE#8 = 0#8 ↔ b.toNat < 2 := by decide
  cases bs <;> simp [masked, high]

/-- A mask byte `0x00` leaves its byte open. -/
theorem masked_free (mask bs pattern : Bytes) :
    masked (0x00 :: mask) bs = 0 :: pattern ↔ ∃ b rest, bs = b :: rest ∧ masked mask rest = pattern := by
  cases bs <;> simp [masked]

/-- R109: the pattern fixes the constant fields and bounds `msg_size` by 2^17. -/
theorem matchesFrame_iff (bs : Bytes) :
    matchesFrame bs = true ↔ ∃ hi m₁ m₀ ack1 ack2 n₁ n₀ rest, hi.toNat < 2 ∧
      bs = frameHeader [0x00#8, hi, m₁, m₀] ack1 ack2 [n₁, n₀] ++ rest := by
  simp only [matchesFrame_eq_masked, frameMask, framePattern, beq_iff_eq, masked_fixed, masked_high, masked_free]
  constructor
  · rintro ⟨_, rfl, _, rfl, _, rfl, _, rfl, _, rfl, hi, _, bound, rfl, m₁, _, rfl, m₀, _, rfl, ack1, _, rfl, _, rfl,
      _, rfl, _, rfl, _, rfl, _, rfl, _, rfl, _, rfl, _, rfl, _, rfl, ack2, _, rfl, n₁, _, rfl, n₀, rest, rfl, -⟩
    exact ⟨hi, m₁, m₀, ack1, ack2, n₁, n₀, rest, bound, rfl⟩
  · rintro ⟨hi, m₁, m₀, ack1, ack2, n₁, n₀, rest, bound, rfl⟩
    simpa [frameHeader, List.replicate, masked] using Nat.le_of_lt_succ bound

/-- What follows a header that matches is the payload and the checksum (R109, R91). -/
theorem decodeFrame_header {hi : Byte} (bound : hi.toNat < 2) (m₁ m₀ ack1 ack2 n₁ n₀ : Byte) (datas : Bytes)
    (ck : Byte) :
    decodeFrame (frameHeader [0x00#8, hi, m₁, m₀] ack1 ack2 [n₁, n₀] ++ (datas ++ [ck])) =
      .ok (.frame (BitVec.ofNat 32 (beNat [0x00#8, hi, m₁, m₀])) ack1 ack2 (BitVec.ofNat 16 (beNat [n₁, n₀])) datas
        ck) := by
  have hmatch := (matchesFrame_iff _).mpr ⟨hi, m₁, m₀, ack1, ack2, n₁, n₀, datas ++ [ck], bound, rfl⟩
  have payload : (frameHeader [0x00#8, hi, m₁, m₀] ack1 ack2 [n₁, n₀] ++ (datas ++ [ck])).drop 21 = datas ++ [ck] :=
    rfl
  simp only [decodeFrame, hmatch, if_true, payload, splitLast_append]
  rfl

/-- A header alone is no frame: the checksum byte is missing. -/
theorem decodeFrame_header_nil (hi m₁ m₀ ack1 ack2 n₁ n₀ : Byte) :
    decodeFrame (frameHeader [0x00#8, hi, m₁, m₀] ack1 ack2 [n₁, n₀] ++ []) = .error .notAFrame := by
  unfold decodeFrame
  split <;> rfl

theorem decodeFrame_layoutFrame {msgSize : BitVec 32} (bound : msgSize.toNat < 2 ^ 17) (ack1 ack2 : Byte)
    (mmnn : BitVec 16) (datas : Bytes) (ck : Byte) :
    decodeFrame (layoutFrame msgSize.toNat ack1 ack2 mmnn.toNat datas ck) =
      .ok (.frame msgSize ack1 ack2 mmnn datas ck) := by
  have top : low8 (msgSize.toNat / 2 ^ 24) = 0x00#8 := BitVec.eq_of_toNat_eq (by simp; omega)
  have high : (low8 (msgSize.toNat / 2 ^ 16)).toNat < 2 := by rw [low8_toNat]; omega
  have size : be32 msgSize.toNat = [0x00#8, low8 (msgSize.toNat / 2 ^ 16), low8 (msgSize.toNat / 2 ^ 8),
      low8 msgSize.toNat] := by rw [be32, top]
  rw [layoutFrame_eq_header, size, be16, decodeFrame_header high, ← size, ← be16, beNat_be32 _ msgSize.isLt,
    beNat_be16 _ mmnn.isLt, BitVec.ofNat_toNat, BitVec.ofNat_toNat]
  rfl

/-- A frame that decodes is the layout of its fields, and its `msg_size` is one the pattern admits. -/
theorem encode_of_decodeFrame {bytes : Bytes} {i : Instr} (h : decodeFrame bytes = .ok i) :
    encode i = .frame bytes ∧ i.encodable = true := by
  have hmatch : matchesFrame bytes = true := by
    by_contra no
    simp [decodeFrame, no] at h
  obtain ⟨hi, m₁, m₀, ack1, ack2, n₁, n₀, rest, bound, rfl⟩ := (matchesFrame_iff bytes).mp hmatch
  rcases List.eq_nil_or_concat' rest with rfl | ⟨datas, ck, rfl⟩
  · rw [decodeFrame_header_nil] at h
    cases h
  · rw [decodeFrame_header bound] at h
    cases h
    constructor
    · rw [encode, layoutFrame_eq_header, toNat_msgSize, toNat_mmnn, be32_beNat, be16_beNat]
    · rw [Instr.encodable, toNat_msgSize]
      exact decide_eq_true (beNat_msgSize_lt bound m₁ m₀)

/-! ### The statements about the decoder -/

/-- Settles O1, format by format: a buffer splits at its last byte, reserved codes are decoded as such, and a frame's
header matches the pattern where `msg_size` is below 2^17. -/
theorem decodeAfterEncode : Obligations.DecodeAfterEncode := by
  intro i admitted
  cases i with
  | buildPayload mode es => rfl
  | computeFrame ack datas => rfl
  | appendTag frame tag => exact decodeCommand_appendTag frame tag
  | sendHead bytes => rfl
  | sendBottom bytes => rfl
  | sendPoint rbuf => rfl
  | waitPending => rfl
  | shutdown => rfl
  | cmdReserved op operands => exact decodeCommand_reserved (by simpa [Instr.encodable] using admitted) operands
  | sendCmd mode es ack tag => rfl
  | kindSendToHead data => rfl
  | kindSendToBottom data => rfl
  | kindSendToPoint data => rfl
  | kindReserved data => rfl
  | tagHead frame => exact decode_tagged frame tagHeadValue
  | tagBottom frame => exact decode_tagged frame tagBottomValue
  | tagBroadcast frame => exact decode_tagged frame tagBroadcastValue
  | tagReserved frame tag =>
    have reserved : tag.toNat = 0 ∨ 4 ≤ tag.toNat := by simpa [Instr.encodable] using admitted
    exact (decode_tagged frame tag).trans (congrArg _ (decodeTag_reserved frame reserved))
  | frame msgSize ack1 ack2 mmnn datas ck =>
    exact decodeFrame_layoutFrame (by simpa [Instr.encodable] using admitted) ack1 ack2 mmnn datas ck
  | rbuf frame tag => exact decode_routed frame tag
  | cmdPayload mode es => rfl

/-- Settles O2, by the format of the item. -/
theorem encodeAfterDecode : Obligations.EncodeAfterDecode := by
  intro it i h
  cases it with
  | command bytes => exact encode_of_decodeCommand h
  | pseudo mode es ack tag => cases h; exact ⟨rfl, rfl⟩
  | message code data => cases h; exact encode_decodeKind code data
  | tagged bytes =>
    rcases List.eq_nil_or_concat' bytes with rfl | ⟨frame, tag, rfl⟩
    · simp [decode, splitLast] at h
    · rw [decode_tagged] at h
      cases h
      exact encode_decodeTag frame tag
  | frame bytes => exact encode_of_decodeFrame h
  | routed bytes =>
    rcases List.eq_nil_or_concat' bytes with rfl | ⟨frame, tag, rfl⟩
    · simp [decode, splitLast] at h
    · rw [decode_routed] at h
      cases h
      exact ⟨rfl, rfl⟩
  | payload bytes =>
    cases bytes with
    | nil => simp [decode] at h
    | cons mode es => cases h; exact ⟨rfl, rfl⟩

end Sys2Proof.Machine
end

section
/-! The statements about the frame, which is the one well-formed byte sequence of its ack and payload, about what the
serializer's operations answer, and about the dispatcher's turn that decodes a queued message. -/

namespace Sys2Proof.Machine

/-! ### The frame read by offset -/

/-- The frame of `ack` and `datas` field by field (R91, R132). -/
theorem frameBytes_eq_fields (ack : Byte) (datas : Bytes) :
    frameBytes ack datas =
      [0xA4#8, 0x03#8, 0x00#8, 0x00#8] ++ be32 (datas.length + 6) ++ [ack] ++ List.replicate 7 0x00#8 ++
        [0xFF#8, 0xA5#8] ++ [ack] ++ be16 (datas.length + 1) ++ datas ++
        [low8 (0xFF + 0xA5 + ack.toNat + (datas.length + 1) + sumBytes datas)] := by
  rw [frameBytes, checksum_eq]
  rfl

theorem frameBytes_length (ack : Byte) (datas : Bytes) : (frameBytes ack datas).length = datas.length + 22 :=
  layoutFrame_length ..

theorem slice_frameBytes_ack1 (ack : Byte) (datas : Bytes) : slice (frameBytes ack datas) 8 9 = [ack] := by
  rw [frameBytes, layoutFrame_eq]
  rfl

theorem slice_frameBytes_unused (ack : Byte) (datas : Bytes) :
    slice (frameBytes ack datas) 9 16 = List.replicate 7 0x00#8 := by
  rw [frameBytes, layoutFrame_eq]
  rfl

theorem slice_frameBytes_ack2 (ack : Byte) (datas : Bytes) : slice (frameBytes ack datas) 18 19 = [ack] := by
  rw [frameBytes, layoutFrame_eq]
  rfl

theorem drop_frameBytes (ack : Byte) (datas : Bytes) :
    (frameBytes ack datas).drop 21 = datas ++ [checksum ack datas] := by
  rw [frameBytes, layoutFrame_eq]
  rfl

theorem slice_frameBytes_datas (ack : Byte) (datas : Bytes) :
    slice (frameBytes ack datas) 21 (21 + datas.length) = datas := by
  simp [slice, drop_frameBytes]

theorem slice_frameBytes_checksum (ack : Byte) (datas : Bytes) :
    slice (frameBytes ack datas) (21 + datas.length) (22 + datas.length) = [checksum ack datas] := by
  have one : 22 + datas.length - (21 + datas.length) = 1 := by omega
  rw [slice, ← List.drop_drop, drop_frameBytes, List.drop_left, one]
  rfl

/-- A slice of one byte is a look-up at its offset. -/
theorem getElem?_of_slice {s : Bytes} {i : Nat} {b : Byte} (h : slice s i (i + 1) = [b]) : s[i]? = some b := by
  have first : (slice s i (i + 1)).head? = s[i]? := by
    simp [slice, List.head?_take]
  rw [← first, h]
  rfl

/-! ### A byte sequence put together from its slices -/

theorem slice_append_slice (s : Bytes) {i j k : Nat} (hij : i ≤ j) (hjk : j ≤ k) :
    slice s i j ++ slice s j k = slice s i k := by
  have width : k - i = (j - i) + (k - j) := by omega
  have start : s.drop j = (s.drop i).drop (j - i) := by rw [List.drop_drop, Nat.add_sub_cancel' hij]
  simp only [slice, width, start, List.take_add]

theorem slice_all (s : Bytes) : slice s 0 s.length = s := by simp [slice]

/-- R105 clause by clause, `N` being the number of bytes between header and checksum. -/
theorem frameWellFormed_iff (ack : Byte) (f : Bytes) :
    frameWellFormed ack f = true ↔ 22 ≤ f.length ∧ f.length - 22 ≤ 65534 ∧
      slice f 0 4 = [0xA4#8, 0x03#8, 0x00#8, 0x00#8] ∧ slice f 4 8 = be32 (f.length - 22 + 6) ∧
      slice f 8 9 = [ack] ∧ slice f 9 16 = List.replicate 7 0x00#8 ∧ slice f 16 18 = [0xFF#8, 0xA5#8] ∧
      slice f 18 19 = [ack] ∧ slice f 19 21 = be16 (f.length - 22 + 1) ∧
      slice f (21 + (f.length - 22)) (22 + (f.length - 22)) =
        [low8 (0xFF + 0xA5 + ack.toNat + (f.length - 22 + 1) +
          sumBytes (slice f 21 (21 + (f.length - 22))))] := by
  simp only [frameWellFormed, Bool.and_eq_true, decide_eq_true_eq, beq_iff_eq, and_assoc]
  rfl

theorem frameWellFormed_frameBytes (ack : Byte) {datas : Bytes} (bound : datas.length ≤ 65534) :
    frameWellFormed ack (frameBytes ack datas) = true := by
  have payload : (frameBytes ack datas).length - 22 = datas.length := by rw [frameBytes_length]; omega
  have marks : slice (frameBytes ack datas) 0 4 = [0xA4#8, 0x03#8, 0x00#8, 0x00#8] := by
    rw [← slice_append_slice _ (by omega : 0 ≤ 2) (by omega : 2 ≤ 4), slice_frameBytes_type, slice_frameBytes_subtype]
    rfl
  rw [frameWellFormed_iff, payload, slice_frameBytes_datas, ← checksum_eq]
  exact ⟨by rw [frameBytes_length]; omega, bound, marks, slice_frameBytes_msgSize ack datas,
    slice_frameBytes_ack1 ack datas, slice_frameBytes_unused ack datas, slice_frameBytes_frameHead ack datas,
    slice_frameBytes_ack2 ack datas, slice_frameBytes_mmnn ack datas, slice_frameBytes_checksum ack datas⟩

/-- The clauses of R105 fix every byte but the payload's: put together they are the frame. -/
theorem eq_frameBytes_of_wellFormed {ack : Byte} {f : Bytes} (h : frameWellFormed ack f = true) :
    f = frameBytes ack (slice f 21 (21 + (f.length - 22))) := by
  obtain ⟨long, -, marks, size, ack1, unused, frameHead, ack2, count, ck⟩ := (frameWellFormed_iff ack f).mp h
  have payload : (slice f 21 (21 + (f.length - 22))).length = f.length - 22 := by simp [slice]; omega
  have whole : f = slice f 0 4 ++ slice f 4 8 ++ slice f 8 9 ++ slice f 9 16 ++ slice f 16 18 ++ slice f 18 19 ++
      slice f 19 21 ++ slice f 21 (21 + (f.length - 22)) ++ slice f (21 + (f.length - 22)) (22 + (f.length - 22)) := by
    simp (disch := omega) only [slice_append_slice, Nat.add_sub_cancel' long, slice_all]
  rw [frameBytes_eq_fields, payload]
  rwa [marks, size, ack1, unused, frameHead, ack2, count, ck] at whole

/-! ### What the serializer's operations answer -/

theorem computeFrame_of_le (ack : Byte) {datas : Bytes} (bound : datas.length ≤ 65534) :
    computeFrame ack datas = some (frameBytes ack datas) :=
  if_neg (Nat.not_lt.mpr bound)

/-- COMPUTEFRAME within its bound hands out the frame and completes (R132). -/
theorem exec_computeFrame_of_le (ack : Byte) {datas : Bytes} (bound : datas.length ≤ 65534) (s : State) :
    exec (.computeFrame ack datas) s = .next (s.respond (frameBytes ack datas)).complete := by
  simp only [exec, execComputeFrame, computeFrame_of_le ack bound]

/-- The bound of R132 keeps both length fields within their widths. -/
theorem toNat_lengthFields {datas : Bytes} (bound : datas.length ≤ 65534) :
    (BitVec.ofNat 32 (datas.length + 6)).toNat = datas.length + 6 ∧
      (BitVec.ofNat 16 (datas.length + 1)).toNat = datas.length + 1 :=
  ⟨Nat.mod_eq_of_lt (by omega), Nat.mod_eq_of_lt (by omega)⟩

/-- The length fields COMPUTEFRAME writes, and its checksum, agree with the payload (R105). -/
theorem frameFieldsOk_of_le (ack : Byte) {datas : Bytes} (bound : datas.length ≤ 65534) :
    frameFieldsOk (BitVec.ofNat 32 (datas.length + 6)) ack ack (BitVec.ofNat 16 (datas.length + 1)) datas
      (checksum ack datas) = true := by
  obtain ⟨size, count⟩ := toNat_lengthFields bound
  simp only [frameFieldsOk, size, count, contentExtra, mmnnExtra, beq_self_eq_true, Bool.and_true,
    decide_eq_true_eq]
  exact bound

/-- The row FRAME answers the bytes its agreeing fields lay out (R91, R105). -/
theorem exec_frame_of_ok {msgSize : BitVec 32} {a1 a2 ck : Byte} {mmnn : BitVec 16} {datas : Bytes}
    (ok : frameFieldsOk msgSize a1 a2 mmnn datas ck = true) (s : State) :
    exec (.frame msgSize a1 a2 mmnn datas ck) s =
      .next (s.respond (layoutFrame msgSize.toNat a1 a2 mmnn.toNat datas ck)).complete :=
  if_pos ok

theorem exec_frame_of_not_ok {msgSize : BitVec 32} {a1 a2 ck : Byte} {mmnn : BitVec 16} {datas : Bytes}
    (bad : frameFieldsOk msgSize a1 a2 mmnn datas ck = false) (s : State) :
    exec (.frame msgSize a1 a2 mmnn datas ck) s = .refused .illFormedFrame :=
  if_neg (by simp [bad])

/-- A payload within the bound fits the row FRAME, which then is COMPUTEFRAME (log 9). -/
theorem exec_frame_eq_computeFrame (ack : Byte) {datas : Bytes} (bound : datas.length ≤ 65534) (s : State) :
    exec (.frame (BitVec.ofNat 32 (datas.length + 6)) ack ack (BitVec.ofNat 16 (datas.length + 1)) datas
      (checksum ack datas)) s = exec (.computeFrame ack datas) s := by
  obtain ⟨size, count⟩ := toNat_lengthFields bound
  rw [exec_frame_of_ok (frameFieldsOk_of_le ack bound), exec_computeFrame_of_le ack bound, size, count]
  rfl

/-! ### Sending -/

theorem send_pushes {s : State} (live : s.halted = false) (room : s.hasRoom = true) (m : Message) :
    s.send m = .next (s.push m).complete := by
  simp [State.send, live, room]

/-- SENDCMD within the bound is SENDPOINT of the tagged frame, whatever the state (R176). -/
theorem exec_sendCmd_of_le {mode : Byte} {es : Bytes} (bound : (buildPayload mode es).length ≤ 65534) (ack tag : Byte)
    (s : State) :
    exec (.sendCmd mode es ack tag) s =
      exec (.sendPoint (frameBytes ack (buildPayload mode es) ++ [tag])) s := by
  simp only [exec, execSendCmd, computeFrame_of_le ack bound]
  rfl

/-! ### The dispatcher's turn -/

theorem step_of_dispatcher {s : State} (hturn : s.turn = .dispatcher) :
    step s = onNext State.reschedule (dispatcherStep s) := by
  simp [step, agentStep, hturn]

/-- DEQUEUE (R201): the oldest message is popped and the instruction of its kind code runs without it. -/
theorem dispatcherStep_dequeues {s : State} {m : Message} {ms : List Message} {i : Instr} (idle : s.w = .idle)
    (head : s.q = m :: ms) (may : s.running = true ∨ s.params.drainOnShutdown = true)
    (hdecode : decode (.message (kindCode m.kind) m.data) = .ok i) :
    dispatcherStep s = exec i { s with q := ms } := by
  have enabled : (s.running || s.params.drainOnShutdown) = true := by simpa using may
  simp only [dispatcherStep, idle, head, enabled, if_true]
  exact runItem_of_decode hdecode _

/-! ### The statements -/

/-- Settles O16: the frame meets every clause of R105, and the clauses fix every byte of it but the payload. -/
theorem computeFrameIsTheUniqueWellFormedFrame : Obligations.ComputeFrameIsTheUniqueWellFormedFrame := by
  intro ack datas f bound
  constructor
  · rintro ⟨wellFormed, rfl⟩
    exact eq_frameBytes_of_wellFormed wellFormed
  · rintro rfl
    have payload : (frameBytes ack datas).length - 22 = datas.length := by rw [frameBytes_length]; omega
    exact ⟨frameWellFormed_frameBytes ack bound, by rw [payload, slice_frameBytes_datas]⟩

/-- Settles O3: the operation bytes one by one, then all reserved ones at once. -/
theorem commandBytesFollowTheTable : Obligations.CommandBytesFollowTheTable :=
  ⟨fun x bs => ⟨rfl, rfl, decodeCommand_appendTag bs x, rfl, rfl, rfl, rfl, rfl⟩,
    fun _ bs reserved => decodeCommand_reserved reserved bs, rfl, rfl, rfl⟩

/-- Settles O4: the second stage decodes the byte that the buffer splits off at its end. -/
theorem dispatcherDecodesKindThenTag : Obligations.DispatcherDecodesKindThenTag :=
  ⟨fun _ => ⟨rfl, rfl, rfl, rfl⟩, decode_tagged, rfl⟩

/-- Settles O6: both rows refuse without reading the state, and the three kinds have the codes 0 to 2. -/
theorem reservedCodesAreRefused : Obligations.ReservedCodesAreRefused := by
  refine ⟨fun _ _ _ => rfl, fun _ _ => rfl, fun k => ?_⟩
  cases k <;> decide

/-- Settles O9: the bytes handed out are the frame, read field by field. -/
theorem computeFrameAnswersTheFrame : Obligations.ComputeFrameAnswersTheFrame := by
  intro ack datas s bound
  rw [exec_computeFrame_of_le ack bound, frameBytes_eq_fields]
  rfl

/-- Settles O12, field by field; the two ack bytes are slices of one byte. -/
theorem fixedFieldsAndBothAckBytes : Obligations.FixedFieldsAndBothAckBytes :=
  fun ack datas => ⟨slice_frameBytes_type ack datas, slice_frameBytes_subtype ack datas,
    slice_frameBytes_unused ack datas, slice_frameBytes_frameHead ack datas,
    getElem?_of_slice (slice_frameBytes_ack1 ack datas), getElem?_of_slice (slice_frameBytes_ack2 ack datas)⟩

/-- Settles O13: behind the 21 header bytes stand the payload and the checksum. -/
theorem checksumIsTheLastByte : Obligations.ChecksumIsTheLastByte := by
  refine fun ack datas => ⟨frameBytes_length ack datas, ?_⟩
  rw [← List.getElem?_drop, drop_frameBytes, List.getElem?_concat_length, checksum_eq]
  rfl

/-- Settles O19: FRAME by whether its fields agree; the other two rows run the very rule of their operation. -/
theorem layoutRowsAnswerTheirBytes : Obligations.LayoutRowsAnswerTheirBytes :=
  ⟨fun ack _ s bound =>
      ⟨exec_frame_eq_computeFrame ack bound s, _, exec_frame_of_ok (frameFieldsOk_of_le ack bound) s⟩,
    fun _ _ _ _ _ _ s bad => exec_frame_of_not_ok bad s, fun _ _ _ => ⟨rfl, _, rfl⟩, fun _ _ _ => ⟨rfl, _, rfl⟩⟩

/-- Settles O27: SENDCMD is SENDPOINT of the tagged frame, and that pushes in a live block with room. -/
theorem sendCmdIsItsExpansion : Obligations.SendCmdIsItsExpansion := by
  intro mode ack tag es s bound
  have expansion := exec_sendCmd_of_le bound ack tag s
  exact ⟨expansion, fun live room => expansion.trans (send_pushes live room _)⟩

/-- Settles O45: the step is the dispatcher's own before the schedule, and DEQUEUE runs the decoded kind row. -/
theorem stepRunsTheDequeuedMessage : Obligations.StepRunsTheDequeuedMessage := by
  refine ⟨fun s => step_of_dispatcher, fun s m ms i hturn idle head may hdecode => ?_⟩
  rw [step_of_dispatcher hturn, dispatcherStep_dequeues idle head may hdecode]
  rfl

end Sys2Proof.Machine
end

section
/-! The statements about the frame codec: the lanes a payload keeps, the arithmetic of the checksum and of the datapath
that computes it, and what BUILDPAYLOAD, COMPUTEFRAME and APPENDTAG answer or refuse. -/

namespace Sys2Proof.Machine

/-! ### The lanes a payload keeps -/

theorem s8OfU8_bne_sentinel (b : Byte) : (s8OfU8 b != sentinel) = (b != 0xFF#8) := by
  rw [Bool.eq_iff_iff, bne_iff_ne, bne_iff_ne, ne_eq, ne_eq, s8OfU8_eq_sentinel]

/-- Filtering the signed elements is filtering their lanes (R9, R102). -/
theorem map_filter_sentinel (bs : Bytes) :
    ((bs.map s8OfU8).filter (fun e => e != sentinel)).map u8OfS8 = bs.filter (fun b => b != 0xFF#8) := by
  have lanes : u8OfS8 ∘ s8OfU8 = id := funext u8OfS8_s8OfU8
  have test : (fun e => e != sentinel) ∘ s8OfU8 = fun b => b != 0xFF#8 := funext s8OfU8_bne_sentinel
  rw [List.filter_map, List.map_map, lanes, test, List.map_id]

theorem buildPayloadWith_true (mode : Byte) (es : Bytes) :
    buildPayloadWith true mode es = (mode :: es).filter (fun b => b != 0xFF#8) :=
  map_filter_sentinel (mode :: es)

theorem buildPayloadWith_false (mode : Byte) (es : Bytes) :
    buildPayloadWith false mode es = mode :: es.filter (fun b => b != 0xFF#8) :=
  congrArg (mode :: ·) (map_filter_sentinel es)

/-- BUILDPAYLOAD under the value R7 takes (D2): mode and elements in order, without the `0xFF` lanes (R131). -/
theorem buildPayload_eq_filter (mode : Byte) (es : Bytes) :
    buildPayload mode es = (mode :: es).filter (fun b => b != 0xFF#8) :=
  buildPayloadWith_true mode es

/-- Every lane is either kept or a sentinel. -/
theorem buildPayload_length_add_sentinels (mode : Byte) (es : Bytes) :
    (buildPayload mode es).length + (mode :: es).countP (fun b => b == 0xFF#8) = 1 + es.length := by
  have split := List.length_eq_countP_add_countP (fun b => b != 0xFF#8) (l := mode :: es)
  simp only [List.countP_eq_length_filter (p := fun b => b != 0xFF#8), ← buildPayload_eq_filter, List.length_cons,
    bne_iff_ne, ne_eq, Decidable.not_not] at split
  rw [Nat.add_comm 1, split]
  rfl

theorem sentinel_not_mem_buildPayload (mode : Byte) (es : Bytes) : 0xFF#8 ∉ buildPayload mode es := by
  rw [buildPayload_eq_filter, List.mem_filter]
  simp

/-- A payload without a sentinel passes the filter unchanged. -/
theorem buildPayload_of_not_mem {mode : Byte} {es : Bytes} (clean : 0xFF#8 ∉ mode :: es) :
    buildPayload mode es = mode :: es := by
  rw [buildPayload_eq_filter, List.filter_eq_self]
  exact fun b present => bne_iff_ne.mpr (ne_of_mem_of_not_mem present clean)

/-! ### The arithmetic of the checksum -/

theorem low8_toNat_self (b : Byte) : low8 b.toNat = b := BitVec.ofNat_toNat 8 b

/-- The low byte of a sum sees a summand only modulo 256 (R135). -/
theorem low8_add_mod (a b c : Nat) : low8 (a + b % 256 + c) = low8 (a + b + c) :=
  BitVec.eq_of_toNat_eq (by rw [low8_toNat, low8_toNat]; omega)

theorem sumBytes_cons (b : Byte) (bs : Bytes) : sumBytes (b :: bs) = b.toNat + sumBytes bs := rfl

theorem sumBytes_zeros (n : Nat) : sumBytes (List.replicate n 0x00#8) = 0 := by simp [sumBytes]

/-- The 8-bit accumulator holds the low byte of the unbounded sum at every stage (R136, R137). -/
theorem foldl_add_eq_low8_sumBytes (acc : Byte) (datas : Bytes) :
    datas.foldl (fun acc b => acc + b) acc = acc + low8 (sumBytes datas) := by
  induction datas generalizing acc with
  | nil => exact (BitVec.add_zero acc).symm
  | cons b bs ih => rw [List.foldl_cons, ih, sumBytes_cons, low8_add, low8_toNat_self, BitVec.add_assoc]

/-- The 16-bit counter holds the length of every admitted payload (R137). -/
theorem referenceChecksum_of_le (ack : Byte) {datas : Bytes} (bound : datas.length ≤ 65534) :
    referenceChecksum ack datas = 0xA4#8 + ack + low8 (datas.length + 1) + low8 (sumBytes datas) := by
  have counter : (BitVec.ofNat 16 datas.length).toNat = datas.length := Nat.mod_eq_of_lt (by omega)
  rw [referenceChecksum, foldl_add_eq_low8_sumBytes, counter]

/-- The checksum depends on `mmnn` only through `(N + 1) mod 256` (R135). -/
theorem checksum_eq_mod (ack : Byte) (datas : Bytes) :
    checksum ack datas = low8 (255 + 165 + ack.toNat + (datas.length + 1) % 256 + sumBytes datas) := by
  rw [checksum_eq, low8_add_mod]

/-! ### What the operations answer -/

theorem computeFrame_of_gt (ack : Byte) {datas : Bytes} (long : 65534 < datas.length) :
    computeFrame ack datas = none :=
  if_pos long

theorem exec_buildPayload (mode : Byte) (es : Bytes) (s : State) :
    exec (.buildPayload mode es) s = .next (s.respond (buildPayload mode es)).complete := rfl

/-! ### The statements -/

/-- Settles O8: the result is what the lane filter keeps, and the readings differ in what they do to the mode. -/
theorem buildPayloadLengthAndIdempotence : Obligations.BuildPayloadLengthAndIdempotence := by
  intro mode es
  refine ⟨Nat.eq_sub_of_add_eq (buildPayload_length_add_sentinels mode es), sentinel_not_mem_buildPayload mode es,
    fun b rest result => ?_, fun kept => ?_, ?_⟩
  · exact buildPayload_of_not_mem (result ▸ sentinel_not_mem_buildPayload mode es)
  · rw [buildPayloadWith_false, buildPayloadWith_true, List.filter_cons, if_pos (bne_iff_ne.mpr kept)]
  · rw [buildPayloadWith_false, buildPayloadWith_true, List.filter_cons_of_neg (by decide)]

/-- Settles O14: the accumulator adds up the low bytes of the numbers whose sum the checksum reduces. -/
theorem datapathComputesTheChecksum : Obligations.DatapathComputesTheChecksum := by
  intro ack datas bound
  calc referenceChecksum ack datas
      = low8 (255 + 165) + low8 ack.toNat + low8 (datas.length + 1) + low8 (sumBytes datas) := by
        rw [referenceChecksum_of_le ack bound, low8_toNat_self]; rfl
    _ = low8 (255 + 165 + ack.toNat + (datas.length + 1) + sumBytes datas) := by simp only [← low8_add]
    _ = checksum ack datas := (checksum_eq ack datas).symm

/-- Settles O7: the answer handed out is the filter of R131 on the lanes. -/
theorem buildPayloadAnswersTheKeptBytes : Obligations.BuildPayloadAnswersTheKeptBytes := by
  intro mode es s
  rw [exec_buildPayload, buildPayload_eq_filter]
  rfl

/-- Settles O10: both operations ask for a frame, and a longer payload has none. -/
theorem longPayloadIsRefused : Obligations.LongPayloadIsRefused := by
  refine fun ack s => ⟨fun datas long => ?_, fun mode tag es long => ?_⟩
  · simp only [exec, execComputeFrame, computeFrame_of_gt ack long]
  · simp only [exec, execSendCmd, computeFrame_of_gt ack long]

/-- Settles O15: the high byte of `mmnn` counts 256 times in the number and once in the sum of the stored bytes. -/
theorem mmnnIsSummedAsANumber : Obligations.MmnnIsSummedAsANumber := by
  refine ⟨fun ack datas => ⟨checksum_eq_mod ack datas, ?_⟩, ?_⟩
  · rw [checksum_eq_mod, ← low8_add]
    congr 1
    omega
  · rw [checksum_eq, List.length_replicate, sumBytes_zeros]
    rfl

/-- Settles O17: the ack stands at offset 8, and the payload is what follows the header up to the last byte. -/
theorem computeFrameIsInjective : Obligations.ComputeFrameIsInjective := by
  intro ack ack' datas datas' same
  have acks : [ack] = [ack'] := by rw [← slice_frameBytes_ack1 ack datas, same, slice_frameBytes_ack1]
  have tails : datas ++ [checksum ack datas] = datas' ++ [checksum ack' datas'] := by
    rw [← drop_frameBytes, same, drop_frameBytes]
  exact ⟨List.singleton_inj.mp acks, List.append_inj_left' tails rfl⟩

/-- Settles O18: the tag is handed out behind the bytes as it is, and is the last byte that is split off. -/
theorem appendTagAppendsOneByte : Obligations.AppendTagAppendsOneByte :=
  fun frame tag _ => ⟨rfl, List.length_append, splitLast_append frame tag⟩

end Sys2Proof.Machine
end

section
/-! The statements about the commands of the routing mux: the push of a send, the wait of WAITPENDING, the first and
the last step of SHUTDOWN, and what the halt refuses. -/

namespace Sys2Proof.Machine

/-! ### Sends and waits, by the halt and the record of waiting producers -/

theorem isSuspended_iff (s : State) : s.isSuspended = true ↔ s.caller ∈ s.suspended := decide_eq_true_iff

/-- A producer that is already listed as waiting is not listed again (log 11). -/
theorem suspend_of_mem {s : State} (waiting : s.caller ∈ s.suspended) : s.suspend = s := by
  simp only [State.suspend, if_pos waiting]

/-- Each of the three send commands is the shared send of one message (R171 to R173). -/
theorem exec_eq_send_of_mem {bytes : Bytes} {i : Instr}
    (hi : i ∈ [Instr.sendHead bytes, .sendBottom bytes, .sendPoint bytes]) (s : State) :
    ∃ m, exec i s = s.send m := by
  simp only [List.mem_cons, List.not_mem_nil, or_false] at hi
  rcases hi with rfl | rfl | rfl <;> exact ⟨_, rfl⟩

/-- R178: a send issued after the halt is refused. -/
theorem send_halted_of_issued {s : State} (halted : s.halted = true) (issued : s.caller ∉ s.suspended) (m : Message) :
    s.send m = .refused .halted := by
  simp [State.send, halted, isSuspended_iff, issued]

/-- A send that was waiting at the halt has no further effect (log 11). -/
theorem send_halted_of_waiting {s : State} (halted : s.halted = true) (waiting : s.caller ∈ s.suspended)
    (m : Message) : s.send m = .next s := by
  simp [State.send, halted, isSuspended_iff, waiting]

/-- R178: a WAITPENDING issued after the halt is refused. -/
theorem exec_waitPending_halted {s : State} (halted : s.halted = true) (issued : s.caller ∉ s.suspended) :
    exec .waitPending s = .refused .halted := by
  simp [exec, execWaitPending, halted, isSuspended_iff, issued]

/-- A WAITPENDING issued before the halt looks at the queue alone (R174, log 11). -/
theorem exec_waitPending_of_allowed {s : State} (allowed : s.halted = false ∨ s.caller ∈ s.suspended) :
    exec .waitPending s = if s.q.isEmpty then .next s.complete else .next s.suspend := by
  have guard : (s.halted && !s.isSuspended) = false := by
    rcases allowed with live | waiting
    · rw [live, Bool.false_and]
    · rw [(isSuspended_iff s).mpr waiting, Bool.not_true, Bool.and_false]
  simp [exec, execWaitPending, guard]

theorem exec_waitPending_completes {s : State} (allowed : s.halted = false ∨ s.caller ∈ s.suspended)
    (empty : s.q = []) : exec .waitPending s = .next s.complete := by
  rw [exec_waitPending_of_allowed allowed, if_pos (List.isEmpty_iff.mpr empty)]

theorem exec_waitPending_waits {s : State} (allowed : s.halted = false ∨ s.caller ∈ s.suspended)
    (pending : s.q ≠ []) : exec .waitPending s = .next s.suspend := by
  rw [exec_waitPending_of_allowed allowed, if_neg (mt List.isEmpty_iff.mp pending)]

/-! ### The first and the last step of SHUTDOWN -/

theorem execShutdown_halted {s : State} (halted : s.halted = true) : execShutdown s = .refused .halted :=
  if_pos halted

/-- Step 1 of R175, whatever the phase of the dispatcher. -/
theorem execShutdown_begins {s : State} (live : s.halted = false) (first : s.stopping = none) :
    execShutdown s = .next { s.suspend with running := false, stopping := some s.caller } := by
  simp [execShutdown, live, first]

/-- Steps 3 and 4 of R175: the owner of the SHUTDOWN finds the dispatcher exited (log 12). -/
theorem execShutdown_completes {s : State} (live : s.halted = false) (mine : s.stopping = some s.caller)
    (joined : s.w = .exited) :
    execShutdown s = .next { (s.closeBoth (Config.closeHeadFirst s.draws)).complete with
      halted := true, stopping := none, draws := s.draws + 1 } := by
  simp [execShutdown, live, mine, joined]

/-- The whole state after a conditional close: the handle is gone, the count is kept (R216). -/
theorem closeIfConnected_eq (s : State) (d : Dest) :
    s.closeIfConnected d =
      { s.setEp d { s.ep d with link := none } with trace := s.trace ++ closeOf s d } := by
  rcases closeIfConnected_cases s d with ⟨held, closes⟩ | ⟨absent, stays⟩
  · rw [closes, closeOf, if_pos held]
    cases d <;> rfl
  · have link : (s.ep d).link = none := (not_connected_iff s d).mp absent
    rw [stays, closeOf, absent, ← link]
    cases d <;> simp [State.setEp]

/-- The whole state after both closes, in one order or the other (D29). -/
theorem closeBoth_eq (s : State) (headFirst : Bool) :
    ∃ evs, (evs = closeOf s .head ++ closeOf s .bottom ∨ evs = closeOf s .bottom ++ closeOf s .head) ∧
      s.closeBoth headFirst = { s with
        head := { s.head with link := none }
        bottom := { s.bottom with link := none }
        trace := s.trace ++ evs } := by
  cases headFirst with
  | true =>
    refine ⟨_, .inl rfl, ?_⟩
    rw [← List.append_assoc, State.closeBoth, if_pos rfl, closeIfConnected_eq, closeIfConnected_eq]
    rfl
  | false =>
    refine ⟨_, .inr rfl, ?_⟩
    rw [← List.append_assoc, State.closeBoth, if_neg Bool.false_ne_true, closeIfConnected_eq, closeIfConnected_eq]
    rfl

/-! ### The statements -/

/-- Settles O20: the three commands differ in the kind of the one message that the shared send pushes. -/
theorem sendCommandsPushOneMessage : Obligations.SendCommandsPushOneMessage :=
  fun bytes _ live room => ⟨send_pushes live room ⟨.sendToHead, bytes⟩, send_pushes live room ⟨.sendToBottom, bytes⟩,
    send_pushes live room ⟨.sendToPoint, bytes⟩⟩

/-- Settles O22: for the commands that push, the halt leaves the shared send to refuse or to change nothing; for
WAITPENDING, being issued before the halt decides; the serializer does not look at the halt. -/
theorem haltedBlockRefusesMuxCommands : Obligations.HaltedBlockRefusesMuxCommands := by
  refine fun s halted => ⟨execShutdown_halted halted, fun issued => ⟨fun bytes i hi => ?_, ?_⟩,
    fun waiting => ⟨fun bytes i hi => ?_, ?_, exec_waitPending_completes (.inr waiting), fun pending => ?_⟩, ?_⟩
  · rcases List.mem_append (s := [_, _, _]) (t := [_]) |>.mp hi with sends | waits
    · obtain ⟨m, sent⟩ := exec_eq_send_of_mem sends s
      exact sent.trans (send_halted_of_issued halted issued m)
    · rw [List.mem_singleton.mp waits]
      exact exec_waitPending_halted halted issued
  · exact fun mode ack tag es bound =>
      (exec_sendCmd_of_le bound ack tag s).trans (send_halted_of_issued halted issued _)
  · obtain ⟨m, sent⟩ := exec_eq_send_of_mem hi s
    exact sent.trans (send_halted_of_waiting halted waiting m)
  · exact fun mode ack tag es bound =>
      (exec_sendCmd_of_le bound ack tag s).trans (send_halted_of_waiting halted waiting _)
  · rw [exec_waitPending_waits (.inr waiting) pending, suspend_of_mem waiting]
  · exact fun x bs bound => ⟨_, _, _, exec_buildPayload x bs s, exec_computeFrame_of_le x bound s, rfl⟩

/-- Settles O23: a live block allows WAITPENDING, and the queue alone decides. -/
theorem waitPendingCompletesOnTheEmptyQueue : Obligations.WaitPendingCompletesOnTheEmptyQueue :=
  fun _ live => ⟨exec_waitPending_completes (.inl live), exec_waitPending_waits (.inl live)⟩

/-- Settles O24: the first step of SHUTDOWN does not look at the dispatcher's phase or at the queue. -/
theorem shutdownClearsTheRunningFlag : Obligations.ShutdownClearsTheRunningFlag :=
  fun _ live first => execShutdown_begins live first

/-- Settles O26: the events are those of both closes in the drawn order, and the rest of the step is its frame. -/
theorem shutdownClosesBothAndHalts : Obligations.ShutdownClosesBothAndHalts := by
  intro s live mine joined
  obtain ⟨evs, order, closed⟩ := closeBoth_eq s (Config.closeHeadFirst s.draws)
  refine ⟨evs, order, ?_⟩
  rw [exec_shutdown, execShutdown_completes live mine joined, closed]
  rfl

end Sys2Proof.Machine
end

section
/-! The statements about the dispatcher: the route a decode stage takes up, the dispatcher's turn in each phase, and the
whole state after a write attempt, after its lazy open and after a reconnect cycle. -/

namespace Sys2Proof.Machine

/-! ### A decode stage takes up a route -/

/-- Each row of the two decode stages is the shared second half of DEQUEUE on some route (R202 to R208). -/
theorem exec_eq_startRoute_of_mem {bs : Bytes} {tag : Byte} {i : Instr}
    (hi : i ∈ [Instr.kindSendToHead bs, .kindSendToBottom bs, .kindSendToPoint bs, .tagHead bs, .tagBottom bs,
      .tagBroadcast bs, .tagReserved bs tag]) (s : State) :
    ∃ p, exec i s = .next (s.startRoute p) := by
  simp only [List.mem_cons, List.not_mem_nil, or_false] at hi
  rcases hi with rfl | rfl | rfl | rfl | rfl | rfl | rfl <;> exact ⟨_, rfl⟩

/-- An empty route leaves the dispatcher where it is, whatever its phase (R208, R209). -/
theorem startRoute_nil (s : State) : s.startRoute [] = s := by
  by_cases idle : s.w = .idle
  · rw [startRoute_idle s [] idle, phaseOf, ← idle]
  · exact startRoute_not_idle s [] idle

theorem exec_kindSendToPoint_append (frame : Bytes) (tag : Byte) (s : State) :
    exec (.kindSendToPoint (frame ++ [tag])) s = .next (s.startRoute (tagRoute frame tag)) := by
  have stripped : route ⟨.sendToPoint, frame ++ [tag]⟩ = tagRoute frame tag := by simp [route]
  rw [← stripped]
  rfl

/-- The second decode stage routes by the tag value (R205 to R208). -/
theorem exec_decodeTag (frame : Bytes) (tag : Byte) (s : State) :
    exec (decodeTag frame tag) s = .next (s.startRoute (tagRoute frame tag)) := by
  unfold decodeTag tagRoute
  split
  · rfl
  · split
    · rfl
    · split <;> rfl

/-- The phase that a tag value's route leads to. -/
theorem phaseOf_tagRoute (frame : Bytes) (tag : Byte) :
    phaseOf (tagRoute frame tag) =
      if tag = 0x01#8 then .busy ⟨.head, frame⟩ []
      else if tag = 0x02#8 then .busy ⟨.bottom, frame⟩ []
      else if tag = 0x03#8 then .busy ⟨.head, frame⟩ [⟨.bottom, frame⟩]
      else .idle := by
  simp only [tagRoute, apply_ite phaseOf]
  rfl

/-! ### The dispatcher's turn, by its phase -/

/-- DEQUEUE (R201) of the whole oldest message: its route is taken up. -/
theorem dispatcherStep_takes_route {s : State} {m : Message} {ms : List Message} (idle : s.w = .idle)
    (head : s.q = m :: ms) (may : s.running = true ∨ s.params.drainOnShutdown = true) :
    dispatcherStep s = .next { s with q := ms, w := phaseOf (route m) } := by
  have decoded := decode_encodeMessage m
  rw [dispatcherStep_dequeues idle head may decoded, ← runItem_of_decode decoded, runItem_encodeMessage,
    startRoute_idle { s with q := ms } _ idle]

/-- ATTEMPT (R218), whatever the running flag. -/
theorem dispatcherStep_busy {s : State} {a : Attempt} {rest : List Attempt} (busy : s.w = .busy a rest) :
    dispatcherStep s = .next (s.attemptStep a rest) := by
  simp only [dispatcherStep, busy]

/-- One ATTEMPT is one attempt of the trace, made with the pending bytes (R210, R218). -/
theorem attemptsOf_attemptStep (s : State) (a : Attempt) (rest : List Attempt) :
    attemptsOf (s.attemptStep a rest).trace = attemptsOf s.trace ++ [a] :=
  attemptsOf_writeAttempt s a.dest a.bytes _

theorem attemptStep_q (s : State) (a : Attempt) (rest : List Attempt) : (s.attemptStep a rest).q = s.q := by
  obtain ⟨-, -, -, q, -⟩ := attemptStep_fields s a rest
  exact q

/-- The product ids of R215. -/
theorem usbPid_eq (d : Dest) : usbPid d = if d = .head then 0x5741#16 else 0x5740#16 := by
  cases d <;> rfl

/-! ### The one shape of a port update: events appended and one destination's record replaced -/

/-- Appends events to the trace and replaces the record of `d`. -/
def State.portUpdate (s : State) (d : Dest) (evs : List PortEvent) (e : EndpointSet) : State :=
  ({ s with trace := s.trace ++ evs } : State).setEp d e

@[simp] theorem portUpdate_trace (s : State) (d : Dest) (evs : List PortEvent) (e : EndpointSet) :
    (s.portUpdate d evs e).trace = s.trace ++ evs := State.setEp_trace ..

@[simp] theorem portUpdate_ep (s : State) (d : Dest) (evs : List PortEvent) (e : EndpointSet) :
    (s.portUpdate d evs e).ep d = e := State.ep_setEp_same ..

@[simp] theorem portUpdate_connected (s : State) (d : Dest) (evs : List PortEvent) (e : EndpointSet) :
    (s.portUpdate d evs e).connected d = e.link.isSome := by
  rw [State.connected, portUpdate_ep]

theorem portUpdate_portUpdate (s : State) (d : Dest) (evs evs' : List PortEvent) (e e' : EndpointSet) :
    (s.portUpdate d evs e).portUpdate d evs' e' = s.portUpdate d (evs ++ evs') e' := by
  cases d <;> simp [State.portUpdate, State.setEp]

/-- A state that differs from `s` in the trace and the record of `d` alone is known once these two are. -/
theorem PortFrame.eq_portUpdate {d : Dest} {s t : State} {evs : List PortEvent} {e : EndpointSet}
    (frame : PortFrame d s t) (trace : t.trace = s.trace ++ evs) (ep : t.ep d = e) : t = s.portUpdate d evs e := by
  obtain ⟨q, running, w, halted, stopping, suspended, params, streams, responses, turn, caller, ticks, draws, other⟩ :=
    frame
  cases d with
  | head =>
    have bottom : t.bottom = s.bottom := other .bottom (by decide)
    cases s; cases t
    simp_all [State.portUpdate, State.setEp]
  | bottom =>
    have head : t.head = s.head := other .head (by decide)
    cases s; cases t
    simp_all [State.portUpdate, State.setEp]

theorem closeDevice_eq (s : State) (d : Dest) :
    s.closeDevice d = s.portUpdate d [.closed d] { s.ep d with link := none } :=
  (closeDevice_frame s d).eq_portUpdate (closeDevice_trace s d) (closeDevice_ep s d)

theorem openDevice_eq (s : State) (d : Dest) (r : Option Link) :
    s.openDevice d r = s.portUpdate d [.opened d r] { s.ep d with link := r.or (s.ep d).link } :=
  (openDevice_frame s d r).eq_portUpdate (openDevice_trace s d r) (openDevice_ep s d r)

/-! ### The lazy open of a write attempt -/

theorem lazyOpen_of_connected {s : State} {d : Dest} (held : s.connected d = true) (r : Option Link) :
    s.lazyOpen d r = s := if_pos held

theorem lazyOpen_of_not_connected {s : State} {d : Dest} (absent : s.connected d = false) (r : Option Link) :
    s.lazyOpen d r = s.openDevice d r := by
  rw [State.lazyOpen, absent, if_neg Bool.false_ne_true]

theorem lazyOpen_connected (s : State) (d : Dest) (r : Option Link) :
    (s.lazyOpen d r).connected d = (s.connected d || r.isSome) := by
  rcases lazyOpen_cases s d r with ⟨held, same⟩ | ⟨absent, -, ep⟩
  · rw [same, held, Bool.true_or]
  · rw [absent, Bool.false_or, State.connected, ep]

theorem lazyOpen_failCount (s : State) (d : Dest) (r : Option Link) :
    ((s.lazyOpen d r).ep d).failCount = (s.ep d).failCount := by
  rcases lazyOpen_cases s d r with ⟨-, same⟩ | ⟨-, -, ep⟩
  · rw [same]
  · rw [ep]

theorem writeAttempt_of_connected {s : State} {d : Dest} (held : s.connected d = true) (bytes : Bytes) (a : Draws) :
    s.writeAttempt d bytes a = s.writeOpened d bytes a := by
  rw [State.writeAttempt, lazyOpen_of_connected held]

/-! ### The verdict of a write attempt -/

/-- A write fails by its error code or by moving nothing (R211). -/
theorem failed_iff (err : Int) (n : Nat) : failed err n = true ↔ err ≠ 0 ∨ n = 0 := by
  simp [failed]

theorem reconnectDue_iff (count : Nat) : reconnectDue count = true ↔ count % 10 = 0 := by
  simp [reconnectDue, reconnectPeriod]

/-- The verdict that the ATTEMPT event of an attempt carries (R211, R220). -/
def verdictOf (fails : Bool) : Verdict := if fails then .fail else .ok

/-- An attempt reports its own verdict and no other. -/
theorem attempted_mem_writeEvents_iff (c : Bool) (d : Dest) (bytes : Bytes) (a : Draws) (v : Verdict) :
    PortEvent.attempted d bytes v ∈ writeEvents c d bytes a ↔ v = verdictOf (attemptFails c bytes a) := by
  cases c <;> simp [writeEvents, attemptFails, verdictOf]

/-- Of the events of an attempt those of the lazy open and of the reconnect cycle carry no verdict. -/
theorem attempted_mem_drop_writeAttempt_iff (s : State) (d : Dest) (bytes : Bytes) (a : Draws) (v : Verdict) :
    PortEvent.attempted d bytes v ∈ (s.writeAttempt d bytes a).trace.drop s.trace.length ↔
      v = verdictOf (attemptFails (s.connected d || a.lazy.isSome) bytes a) := by
  have notLazy : ∀ c, PortEvent.attempted d bytes v ∉ lazyEvents c d a.lazy := by simp [lazyEvents]
  have notReconnect : ∀ c, PortEvent.attempted d bytes v ∉ reconnectEvents c d a.reopen := by simp [reconnectEvents]
  obtain ⟨c, rfl, e | e⟩ := writeAttempt_trace s d bytes a <;>
    simp [e, List.append_assoc, notLazy, notReconnect, attempted_mem_writeEvents_iff]

/-- The count after any attempt (R212, R214): the lazy open does not touch it. -/
theorem writeAttempt_failCount (s : State) (d : Dest) (bytes : Bytes) (a : Draws) :
    ((s.writeAttempt d bytes a).ep d).failCount =
      countAfter (attemptFails (s.connected d || a.lazy.isSome) bytes a) (s.ep d).failCount := by
  rw [State.writeAttempt, writeOpened_failCount, lazyOpen_connected, lazyOpen_failCount]

/-- No write moves a byte of an empty buffer (R210, R295). -/
theorem attemptFails_nil (c : Bool) (a : Draws) : attemptFails c [] a = true := by
  simp [attemptFails, failed]

/-! ### The whole state after a write attempt -/

/-- Everything an attempt after its lazy open does, in one equation (R210 to R214). -/
theorem writeOpened_eq (s : State) (d : Dest) (bytes : Bytes) (a : Draws) :
    s.writeOpened d bytes a =
      if attemptFails (s.connected d) bytes a then
        if reconnectDue ((s.ep d).failCount + 1) then
          s.portUpdate d (writeEvents (s.connected d) d bytes a ++ reconnectEvents (s.connected d) d a.reopen)
            { link := a.reopen, failCount := (s.ep d).failCount + 1 }
        else
          s.portUpdate d (writeEvents (s.connected d) d bytes a)
            { s.ep d with failCount := (s.ep d).failCount + 1 }
      else s.portUpdate d (writeEvents (s.connected d) d bytes a) { s.ep d with failCount := 0 } := by
  have frame := writeOpened_frame s d bytes a
  rcases writeOpened_cases s d bytes a with ⟨fails, -, trace, ep⟩ | ⟨fails, due, trace, ep⟩ | ⟨fails, due, trace, ep⟩
  · rw [fails, if_neg Bool.false_ne_true]
    exact frame.eq_portUpdate trace ep
  · rw [fails, due, if_pos rfl, if_neg Bool.false_ne_true]
    exact frame.eq_portUpdate trace ep
  · rw [fails, due, if_pos rfl, if_pos rfl]
    exact frame.eq_portUpdate (trace.trans (List.append_assoc ..)) ep

section Connected
variable {s : State} {d : Dest} (held : s.connected d = true) {bytes : Bytes} {a : Draws}
include held

/-- A success clears the count and leaves the link (R214). -/
theorem writeAttempt_succeeds (ok : failed a.err (min a.moved bytes.length) = false) :
    s.writeAttempt d bytes a = s.portUpdate d
      [.wrote d bytes a.err (min a.moved bytes.length), .attempted d bytes .ok] { s.ep d with failCount := 0 } := by
  simp [writeAttempt_of_connected held, writeOpened_eq, held, attemptFails, writeEvents, ok]

/-- A failure is counted, and off a multiple of 10 that is all (R212). -/
theorem writeAttempt_counts (bad : failed a.err (min a.moved bytes.length) = true)
    (off : reconnectDue ((s.ep d).failCount + 1) = false) :
    s.writeAttempt d bytes a = s.portUpdate d
      [.wrote d bytes a.err (min a.moved bytes.length), .attempted d bytes .fail]
      { s.ep d with failCount := (s.ep d).failCount + 1 } := by
  simp [writeAttempt_of_connected held, writeOpened_eq, held, attemptFails, writeEvents, bad, off]

/-- On a multiple of 10 the failure also closes and reopens the device (R212, R213). -/
theorem writeAttempt_reconnects (bad : failed a.err (min a.moved bytes.length) = true)
    (due : reconnectDue ((s.ep d).failCount + 1) = true) :
    s.writeAttempt d bytes a = s.portUpdate d
      [.wrote d bytes a.err (min a.moved bytes.length), .attempted d bytes .fail, .closed d, .opened d a.reopen]
      { link := a.reopen, failCount := (s.ep d).failCount + 1 } := by
  simp [writeAttempt_of_connected held, writeOpened_eq, held, attemptFails, writeEvents, reconnectEvents, bad, due]

end Connected

/-- R210: with no error, one byte moved out of a non-empty buffer is enough. -/
theorem not_failed_of_moved {err : Int} {moved : Nat} {bytes : Bytes} (noErr : err = 0) (moves : 0 < moved)
    (nonempty : bytes ≠ []) : failed err (min moved bytes.length) = false := by
  have := List.length_pos_iff.mpr nonempty
  rw [Bool.eq_false_iff, Ne, failed_iff]
  omega

/-! ### Runs of failing attempts -/

theorem runAttempts_append (d : Dest) (xs ys : List (Bytes × Draws)) (s : State) :
    runAttempts d (xs ++ ys) s = runAttempts d ys (runAttempts d xs s) := by
  induction xs generalizing s with
  | nil => rfl
  | cons x xs ih => exact ih _

/-- The failures of R212 before a multiple of 10 is reached: the link stays, each is counted, and no device is closed
or opened. -/
theorem runAttempts_below_period {d : Dest} {xs : List (Bytes × Draws)} {s : State} (held : s.connected d = true)
    (below : (s.ep d).failCount % 10 + xs.length < 10)
    (bad : ∀ x ∈ xs, x.2.err ≠ 0 ∨ min x.2.moved x.1.length = 0) :
    (runAttempts d xs s).connected d = true ∧
    ((runAttempts d xs s).ep d).failCount = (s.ep d).failCount + xs.length ∧
    closesOf d (runAttempts d xs s).trace = closesOf d s.trace ∧
    opensOf d (runAttempts d xs s).trace = opensOf d s.trace := by
  induction xs generalizing s with
  | nil => exact ⟨held, rfl, rfl, rfl⟩
  | cons x xs ih =>
    obtain ⟨bytes, a⟩ := x
    obtain ⟨badHere, badAfter⟩ := List.forall_mem_cons.mp bad
    rw [List.length_cons] at below
    have off : reconnectDue ((s.ep d).failCount + 1) = false := by
      rw [Bool.eq_false_iff, Ne, reconnectDue_iff]
      omega
    have counted := writeAttempt_counts held ((failed_iff _ _).mpr badHere) off
    obtain ⟨heldAfter, count, closes, opens⟩ := ih (s := s.writeAttempt d bytes a)
      (by rw [counted, portUpdate_connected]; exact held) (by rw [counted, portUpdate_ep]; simp only; omega) badAfter
    refine ⟨heldAfter, count.trans ?_, closes.trans ?_, opens.trans ?_⟩
    · rw [counted, portUpdate_ep, List.length_cons, Nat.add_assoc, Nat.add_comm 1]
    · rw [counted, portUpdate_trace, closesOf_append]
      rfl
    · rw [counted, portUpdate_trace, opensOf_append]
      rfl

/-! ### The statements -/

/-- Settles O32: the broadcast's two attempts are the phase's pending ones, and each turn makes the first of them. -/
theorem broadcastAttemptsHeadThenBottom : Obligations.BroadcastAttemptsHeadThenBottom := by
  intro frame s idle
  refine ⟨_, _, _, congrArg Host.Outcome.next (startRoute_idle s _ idle), dispatcherStep_busy rfl,
    dispatcherStep_busy rfl, ?_, rfl, ?_⟩
  · rw [attemptsOf_attemptStep, attemptsOf_attemptStep, List.append_assoc]
    rfl
  · rw [attemptStep_q, attemptStep_q]

/-- Settles O41: an empty buffer fails whether or not a handle is held after the lazy open. -/
theorem zeroLengthAttemptAlwaysFails : Obligations.ZeroLengthAttemptAlwaysFails := by
  intro d a s
  rw [writeAttempt_failCount, attempted_mem_drop_writeAttempt_iff, attempted_mem_drop_writeAttempt_iff,
    attemptFails_nil]
  exact ⟨rfl, rfl, by decide⟩

/-- Settles O43: nine failures stay below the next multiple of 10, and the tenth, which reaches it, reconnects. -/
theorem tenFailuresMakeOneReconnect : Obligations.TenFailuresMakeOneReconnect := by
  intro d xs s held multiple ten bad
  rcases List.eq_nil_or_concat' xs with rfl | ⟨nine, ⟨bytes, a⟩, rfl⟩
  · cases ten
  · have nine_length : nine.length = 9 := by simpa using ten
    obtain ⟨badNine, badLast⟩ := List.forall_mem_append.mp bad
    obtain ⟨heldAfter, count, closes, opens⟩ := runAttempts_below_period held (by omega) badNine
    have due : reconnectDue (((runAttempts d nine s).ep d).failCount + 1) = true := by
      rw [reconnectDue_iff]
      omega
    have tenth : runAttempts d (nine ++ [(bytes, a)]) s = _ :=
      (runAttempts_append ..).trans
        (writeAttempt_reconnects heldAfter ((failed_iff _ _).mpr (badLast _ (List.mem_singleton_self _))) due)
    refine ⟨?_, ?_, ?_, fun bytes' a' held' noErr moves nonempty => ?_⟩
    · rw [tenth, portUpdate_ep, count, nine_length]
    · rw [tenth, portUpdate_trace, closesOf_append, closes]
      simp [closesOf]
    · rw [tenth, portUpdate_trace, opensOf_append, opens]
      simp [opensOf, isOpenOf]
    · rw [writeAttempt_succeeds held' (not_failed_of_moved noErr moves nonempty), portUpdate_ep]

/-- Settles O28: both rows take up the one-attempt route of their kind, which an idle dispatcher holds. -/
theorem namedKindsRouteTheirWholeData : Obligations.NamedKindsRouteTheirWholeData :=
  fun _ s idle => ⟨rfl, rfl, congrArg _ (startRoute_idle s _ idle), congrArg _ (startRoute_idle s _ idle)⟩

/-- Settles O29: on the stripped bytes and the last byte the kind row and the tag row take up the same route. -/
theorem pointMessageIsRoutedByItsLastByte : Obligations.PointMessageIsRoutedByItsLastByte := by
  refine ⟨fun frame tag s idle => ?_, fun s => congrArg _ (startRoute_nil s), fun frame tag s => ?_⟩
  · rw [exec_kindSendToPoint_append, startRoute_idle s _ idle, phaseOf_tagRoute]
  · rw [exec_kindSendToPoint_append, exec_decodeTag]

/-- Settles O30: the three routing tags are routes an idle dispatcher takes up, and the reserved row's is empty. -/
theorem tagValuesChooseTheDestinations : Obligations.TagValuesChooseTheDestinations :=
  fun _ s idle => ⟨congrArg _ (startRoute_idle s _ idle), congrArg _ (startRoute_idle s _ idle),
    congrArg _ (startRoute_idle s _ idle), fun _ => congrArg _ (startRoute_nil s)⟩

/-- Settles O31: every one of the rows takes up a route, which only an idle dispatcher does. -/
theorem noRouteIsTakenUpOutsideIdle : Obligations.NoRouteIsTakenUpOutsideIdle := by
  intro bs tag s notIdle i hi
  obtain ⟨p, taken⟩ := exec_eq_startRoute_of_mem hi s
  rw [taken, startRoute_not_idle s p notIdle]

/-- Settles O33: whatever its kind, the oldest message is popped and its route taken up. -/
theorem dequeueTakesTheOldestMessage : Obligations.DequeueTakesTheOldestMessage :=
  fun _ _ _ idle head may => dispatcherStep_takes_route idle head may

/-- Settles O34: the turn of a busy dispatcher is ATTEMPT, and its draws ask for the device ids of R215. -/
theorem attemptMakesTheNextPendingWrite : Obligations.AttemptMakesTheNextPendingWrite := by
  intro a rest s busy
  rw [← usbPid_eq]
  exact ⟨dispatcherStep_busy busy, rfl, rfl⟩

/-- Settles O36: such a write is not failed, however few of the bytes it moved. -/
theorem successfulWriteClearsTheCount : Obligations.SuccessfulWriteClearsTheCount := by
  intro d bytes a s held noErr moves nonempty
  rw [writeAttempt_succeeds held (not_failed_of_moved noErr moves nonempty), noErr]
  rfl

/-- Settles O37: a failed write off the reconnect period. -/
theorem failedWriteCountsOnce : Obligations.FailedWriteCountsOnce :=
  fun _ _ _ _ held bad off =>
    writeAttempt_counts held ((failed_iff _ _).mpr bad) (Bool.eq_false_iff.mpr (mt (reconnectDue_iff _).mp off))

/-- Settles O38: a failed write on the reconnect period. -/
theorem tenthFailureReconnects : Obligations.TenthFailureReconnects :=
  fun _ _ _ _ held bad due => writeAttempt_reconnects held ((failed_iff _ _).mpr bad) ((reconnectDue_iff _).mpr due)

/-- Settles O39: the failed lazy open leaves the destination Disconnected, where an attempt fails without a write and a
reconnect cycle has nothing to close. -/
theorem absentDeviceFailsWithoutAWrite : Obligations.AbsentDeviceFailsWithoutAWrite := by
  intro d bytes a s absent noDevice
  have noLink : (s.ep d).link = none := (not_connected_iff s d).mp absent
  have unopened : s.lazyOpen d a.lazy = s.portUpdate d [.opened d none] (s.ep d) := by
    rw [lazyOpen_of_not_connected absent, noDevice, openDevice_eq]
    rfl
  have stillAbsent : (s.portUpdate d [.opened d none] (s.ep d)).connected d = false :=
    (portUpdate_connected ..).trans absent
  rw [State.writeAttempt, unopened, writeOpened_eq, stillAbsent, portUpdate_ep, portUpdate_portUpdate,
    portUpdate_portUpdate, if_pos (show attemptFails false bytes a = true from rfl)]
  simp only [reconnectDue_iff, noLink]
  rfl

/-- Settles O40: on the destination that the open connected, the second attempt has no lazy open to make. -/
theorem lazyOpenThenAttempt : Obligations.LazyOpenThenAttempt := by
  intro d bytes a l s absent opens
  have held : (s.openDevice d (some l)).connected d = true := by rw [openDevice_eq, portUpdate_connected]; rfl
  rw [writeAttempt_of_connected held, State.writeAttempt, lazyOpen_of_not_connected absent, opens]
  exact ⟨held, rfl⟩

/-- Settles O42: both are port updates whose record keeps its count. -/
theorem openAndCloseKeepTheCount : Obligations.OpenAndCloseKeepTheCount :=
  fun d s => ⟨fun _ => ⟨rfl, fun l => openDevice_eq s d (some l)⟩, fun _ => closeDevice_eq s d⟩

end Sys2Proof.Machine
end

section
/-! The statements about the end of the block: what a step can still do once the dispatcher has exited, and once the
block is halted. -/

namespace Sys2Proof.Machine

/-- The dispatcher takes no step after its exit (R219). -/
theorem DispatcherEffect.eq_of_exited {s u : State} (effect : DispatcherEffect s u) (exited : s.w = .exited) :
    u = s := by
  cases effect with
  | idle => rfl
  | dequeued m ms free => cases exited.symm.trans free
  | attempted a rest busy => cases exited.symm.trans busy
  | exited free => cases exited.symm.trans free

/-- After the dispatcher's exit only producers act: a turn of the dispatcher changes no more than a producer's turn
with nothing to issue. -/
theorem step_effect_of_exited {s t : State} (exited : s.w = .exited) (h : step s = .next t) :
    ∃ u, t = u.reschedule ∧ ProducerEffect s u := by
  obtain ⟨u, rfl, ⟨-, effect⟩ | ⟨-, effect⟩⟩ := step_effect h
  · exact ⟨u, rfl, effect⟩
  · obtain rfl := effect.eq_of_exited exited
    exact ⟨u, rfl, .idle⟩

/-- A producer's turn only ever lengthens the queue. -/
theorem ProducerEffect.queue_grows {s u : State} (effect : ProducerEffect s u) : s.q <+: u.q := by
  rcases effect.queue with same | ⟨-, m, push⟩
  · rw [same]
  · rw [push]
    exact List.prefix_append _ _

/-- In a halted block no send is accepted and no SHUTDOWN completes again, so a producer's turn leaves the queue,
the records and the trace as they are (R178, R283). -/
theorem ProducerEffect.of_halted {s u : State} (effect : ProducerEffect s u) (halted : s.halted = true) :
    u.q = s.q ∧ SamePorts s u := by
  constructor
  · rcases effect.queue with same | ⟨live, -⟩
    · exact same
    · cases halted.symm.trans live
  · rcases effect.ports with same | ⟨⟨-, -, live, -⟩, -⟩
    · exact same
    · cases halted.symm.trans live

/-- Settles O58: nothing pops after the dispatcher's exit, and no producer writes the phase. -/
theorem exitedDispatcherLeavesTheQueue : Obligations.ExitedDispatcherLeavesTheQueue := by
  intro s t exited _ hstep
  obtain ⟨u, rfl, effect⟩ := step_effect_of_exited exited hstep
  exact ⟨effect.keeps_phase.trans exited, effect.queue_grows⟩

/-- Settles O57: by the invariant the dispatcher of a halted block has exited, so only producers act, and the halt
stops the two of their effects that reach the queue or the ports. -/
theorem shutdownIsTerminal : Obligations.ShutdownIsTerminal := by
  intro s t inv halted hstep
  obtain ⟨stopped, exited, -⟩ := inv.halted_stops halted
  obtain ⟨u, rfl, effect⟩ := step_effect_of_exited exited hstep
  obtain ⟨staysStopped, staysHalted, -⟩ := effect.one_way
  obtain ⟨queue, ports⟩ := effect.of_halted halted
  have ports := ports.trans (samePorts_reschedule u)
  exact ⟨staysHalted halted, queue, effect.keeps_phase, ports.trace, (staysStopped stopped).trans stopped.symm,
    ports.ep⟩

end Sys2Proof.Machine
end

section
/-! Concrete words of the spec's tables, settled by the round trip of the decoder and the encoder. -/

namespace Sys2Proof.Machine

/-- An item has at most one meaning, so it is decoded by writing out the encoding of its instruction (R99, R109). -/
theorem decode_eq_ok_iff {it : Item} {i : Instr} : decode it = .ok i ↔ encode i = it ∧ i.encodable = true := by
  constructor
  · exact encodeAfterDecode it i
  · rintro ⟨rfl, admitted⟩
    exact decodeAfterEncode i admitted

/-- Settles O5: each of the six items is, byte for byte, what the encoder writes for the instruction it stands for,
whose operands the encoding admits. -/
theorem wordsOfTheSpecDecode : Obligations.WordsOfTheSpecDecode := by
  refine ⟨?_, ?_, ?_, ?_, ?_, ?_⟩ <;> exact decode_eq_ok_iff.mpr ⟨rfl, rfl⟩

end Sys2Proof.Machine
end
